-- ==== Sys2Proof/Word.lean ====
section
/-! DEFINITION. The byte and the 32-bit word of a typed payload record (spec/00_scope.md section 6). -/

namespace Sys2Proof

/-- A byte, an 8-bit unsigned value; bit 7 is the most significant (00_scope.md section 6). -/
abbrev Byte := BitVec 8

/-- A 32-bit value of a typed payload record: `u32`, or the bit pattern of an `f32` (30_encoding.md section 4).
The block never interprets it. -/
abbrev Word32 := BitVec 32

end Sys2Proof
end

