-- ==== Sys2Proof/Config.lean ====
section
/-! DEFINITION. What an instance of the block fixes: the constants of R8 and the open parameters of R9.
The spec has no undefined result, so there is no free value here. -/

namespace Sys2Proof

/-- START marker (R8, R46). -/
def startByte : Byte := 0xAA

/-- END marker, written by the encoder and never inspected by the receiver (R8, R51). -/
def endByte : Byte := 0x55

/-- `MAX_PAYLOAD` (R8). -/
def maxPayload : Nat := 64

/-- `ACK_CODE` (R8). -/
def ackCode : Byte := 0xA0

/-- `CMD_MOTOR_SET_SPEED` (R8). -/
def cmdMotorSetSpeed : Byte := 0x01

/-- `CMD_MOTOR_STOP` (R8). -/
def cmdMotorStop : Byte := 0x02

/-- The ultrasonic sentinel 400.0, "no echo", as an IEEE-754 pattern (R59).
PRESUMED: the pattern is general knowledge, 93_implementation_defined.md G3 (log entry 21). Data only; nothing tests it. -/
def ultrasonicNoEcho : Word32 := 0x43C80000

/-- The ultrasonic value -1.0, "reserved for invalid reading upstream" (R59). PRESUMED pattern, as above (log entry 21). -/
def ultrasonicInvalid : Word32 := 0xBF800000

/-- `PAYLOAD_BYTE_ORDER` (R9, R31). -/
inductive ByteOrder where
  | little
  | big
deriving DecidableEq, Repr

/-- A query handler, an element of `ALL_SENSORS_SEQUENCE` (R9, R122). -/
inductive Query where
  | imu
  | ultrasonic
  | status
deriving DecidableEq, Repr

/-- Which realisation of the spec an instance is (R6, R110; DESIGN CHOICE, log entry 1). -/
inductive Level where
  /-- The transaction level: a send request and a dispatch are each one step (R3, R85, R100). -/
  | transaction
  /-- The port level: the FRAME port holds a frame until the dispatcher takes it, and the encoder writes one byte a
  step (R24, R110). -/
  | port
deriving DecidableEq, Repr

/-- The parameters of an instance: "constants of the instance, fixed when it is built" (R20). The codes are the open
parameters of R9 under the spec's names. -/
structure Params where
  level : Level
  nackCode : Byte
  cmdMotorEstop : Byte
  cmdImuReq : Byte
  cmdUltrasonicReq : Byte
  cmdAllSensorsReq : Byte
  cmdLed : Byte
  cmdBuzzer : Byte
  cmdStatusReq : Byte
  cmdReset : Byte
  rspImuData : Byte
  rspUltrasonicData : Byte
  rspAllSensorsData : Byte
  rspSystemStatus : Byte
  byteOrder : ByteOrder
  allSensors : List Query
deriving DecidableEq, Repr

/-- The spec's own defaults of R9, "not the original firmware's values" (DESIGN CHOICE, log entry 3). -/
def Params.specDefault : Params where
  level := .transaction
  nackCode := 0xA1
  cmdMotorEstop := 0x03
  cmdImuReq := 0x10
  cmdUltrasonicReq := 0x11
  cmdAllSensorsReq := 0x12
  cmdLed := 0x20
  cmdBuzzer := 0x21
  cmdStatusReq := 0x22
  cmdReset := 0x23
  rspImuData := 0xB0
  rspUltrasonicData := 0xB1
  rspAllSensorsData := 0xB2
  rspSystemStatus := 0xB3
  byteOrder := .little
  allSensors := [.imu, .ultrasonic]

/-- The ten command codes, in the order of R55. -/
def Params.commandCodes (P : Params) : List Byte :=
  [cmdMotorSetSpeed, cmdMotorStop, P.cmdMotorEstop, P.cmdImuReq, P.cmdUltrasonicReq, P.cmdAllSensorsReq, P.cmdLed,
    P.cmdBuzzer, P.cmdStatusReq, P.cmdReset]

/-- The six response codes, in the order of R56. -/
def Params.responseCodes (P : Params) : List Byte :=
  [ackCode, P.nackCode, P.rspImuData, P.rspUltrasonicData, P.rspAllSensorsData, P.rspSystemStatus]

/-- The constraints of R9 on the codes: command codes pairwise distinct, response codes pairwise distinct, no response
code a command code, 0xFF no command code. -/
abbrev Params.wf (P : Params) : Prop :=
  (P.commandCodes ++ P.responseCodes).Nodup ∧ (0xFF : Byte) ∉ P.commandCodes

end Sys2Proof
end

