-- ==== Sys2Proof/Syntax.lean ====
section
/-! DEFINITION. The operations of spec/opcode_table.json, one constructor of `Instr` per row, and the types of their
operands. -/

namespace Sys2Proof

/-- `rx_state` (R10): the kind of byte the receiver expects next. -/
inductive RxState where
  | idle
  | cmd
  | length
  | data
  | checksum
deriving DecidableEq, Repr

/-- `tx_state` (R21): the next byte the byte-serial encoder writes. -/
inductive TxState where
  | idle
  | start
  | cmd
  | len
  | data
  | csum
  | fin
deriving DecidableEq, Repr

/-- IMU telemetry (R58), 12 single-precision values in the order of the record. The order of x, y, z inside a group is
general knowledge, 93_implementation_defined.md G2 (PRESUMED, log entry 21). -/
structure ImuRecord where
  accelX : Word32
  accelY : Word32
  accelZ : Word32
  gyroX : Word32
  gyroY : Word32
  gyroZ : Word32
  magX : Word32
  magY : Word32
  magZ : Word32
  roll : Word32
  pitch : Word32
  yaw : Word32
deriving DecidableEq, Repr

/-- Ultrasonic telemetry (R59): four single-precision distances. -/
structure UltrasonicRecord where
  front : Word32
  rear : Word32
  left : Word32
  right : Word32
deriving DecidableEq, Repr

/-- System status (R60). -/
structure StatusRecord where
  uptime : Word32
  battery : Word32
  cpuLoad : Byte
  errorCount : Byte
deriving DecidableEq, Repr

/-- Whose accumulator a CSUM.ACC operation updates (R92, R94): `rx_acc` or `tx_acc`. -/
inductive AccSide where
  | rx
  | tx
deriving DecidableEq, Repr

/-- The two accumulator updates of R92: load with the command byte, or add a byte modulo 256. -/
inductive AccOp where
  | load
  | add
deriving DecidableEq, Repr

/-- The ten commands of R55 and UNKNOWN (R127), as the dispatcher tells them apart (R116). -/
inductive Command where
  | motorSetSpeed
  | motorStop
  | motorEstop
  | imuReq
  | ultrasonicReq
  | allSensorsReq
  | ledControl
  | buzzerControl
  | statusReq
  | reset
  | unknown
deriving DecidableEq, Repr

/-- The six response frames of R56, with their typed payloads. -/
inductive Response where
  | ack
  | nack
  | imuData (r : ImuRecord)
  | ultrasonicData (r : UltrasonicRecord)
  | allSensorsData (payload : List Byte)
  | systemStatus (r : StatusRecord)
deriving DecidableEq, Repr

/-- The operations of spec/opcode_table.json, one constructor per row, in the table's order. A frame constructor carries
the payload; LENGTH is its length and CHECKSUM follows from the rest (R45). -/
inductive Instr where
  /-- RX.IDLE.START (R71) -/
  | rxIdleStart
  /-- RX.IDLE.SKIP (R72) -/
  | rxIdleSkip (b : Byte)
  /-- RX.CMD (R73) -/
  | rxCmd (b : Byte)
  /-- RX.LEN.OVER (R74) -/
  | rxLenOver (b : Byte)
  /-- RX.LEN.ZERO (R75) -/
  | rxLenZero
  /-- RX.LEN.DATA (R76) -/
  | rxLenData (b : Byte)
  /-- RX.DATA.MORE (R77) -/
  | rxDataMore (b : Byte)
  /-- RX.DATA.LAST (R78) -/
  | rxDataLast (b : Byte)
  /-- RX.CSUM.OK (R79) -/
  | rxCsumOk (b : Byte)
  /-- RX.CSUM.BAD (R80) -/
  | rxCsumBad (b : Byte)
  /-- CSUM.FN (R90) -/
  | csumFn (command length : Byte) (payload : List Byte)
  /-- CSUM.ACC (R92) -/
  | csumAcc (side : AccSide) (op : AccOp) (b : Byte)
  /-- CSUM.CMP (R93) -/
  | csumCmp (b expected : Byte)
  /-- TX.SEND (R100) -/
  | txSend (command : Byte) (payload : List Byte)
  /-- TX.SEND.REFUSE (R101) -/
  | txSendRefuse (command : Byte) (payload : List Byte)
  /-- TX.ACK (R102) -/
  | txAck
  /-- TX.NACK (R103) -/
  | txNack
  /-- TX.BYTE.START (R110) -/
  | txByteStart
  /-- TX.BYTE.CMD (R110) -/
  | txByteCmd
  /-- TX.BYTE.LEN (R110) -/
  | txByteLen
  /-- TX.BYTE.DATA (R110) -/
  | txByteData
  /-- TX.BYTE.CSUM (R110) -/
  | txByteCsum
  /-- TX.BYTE.END (R110) -/
  | txByteEnd
  /-- RESET.ASSERT (R160) -/
  | resetAssert
  /-- MOTOR_SET_SPEED (R117) -/
  | motorSetSpeed (payload : List Byte)
  /-- MOTOR_STOP (R118) -/
  | motorStop (payload : List Byte)
  /-- MOTOR_ESTOP (R119) -/
  | motorEstop (payload : List Byte)
  /-- IMU_REQ (R120) -/
  | imuReq (payload : List Byte)
  /-- ULTRASONIC_REQ (R121) -/
  | ultrasonicReq (payload : List Byte)
  /-- ALL_SENSORS_REQ (R122) -/
  | allSensorsReq (payload : List Byte)
  /-- LED_CONTROL (R123) -/
  | ledControl (payload : List Byte)
  /-- BUZZER_CONTROL (R124) -/
  | buzzerControl (payload : List Byte)
  /-- STATUS_REQ (R125) -/
  | statusReq (payload : List Byte)
  /-- RESET, the command frame (R126) -/
  | resetCommand (payload : List Byte)
  /-- UNKNOWN (R127) -/
  | unknown (command : Byte) (payload : List Byte)
  /-- ACK, the response frame (R66, R102) -/
  | ack
  /-- NACK, the response frame (R66, R103) -/
  | nack
  /-- IMU_DATA (R58) -/
  | imuData (r : ImuRecord)
  /-- ULTRASONIC_DATA (R59) -/
  | ultrasonicData (r : UltrasonicRecord)
  /-- ALL_SENSORS_DATA (R67): no layout in the spec, carried as bytes -/
  | allSensorsData (payload : List Byte)
  /-- SYSTEM_STATUS (R60) -/
  | systemStatus (r : StatusRecord)
deriving DecidableEq, Repr

end Sys2Proof
end

