-- ==== Sys2Proof/Machine/Flags.lean ====
section
/-! DEFINITION. The checksum function (R90) and the four conditions that a step computes and does not store (R19). -/

namespace Sys2Proof.Machine

/-- The natural sum of a list of bytes, no wrap-around inside (00_scope.md section 6). -/
def byteSum : List Byte → Nat
  | [] => 0
  | b :: bs => b.toNat + byteSum bs

/-- CSUM.FN (R90): `(command + length + Σ payload[i]) mod 256`. -/
def checksum (command length : Byte) (payload : List Byte) : Byte :=
  BitVec.ofNat 8 (command.toNat + length.toNat + byteSum payload)

/-- The accumulator update of R92: `trunc_8(acc + b)`. -/
def accumulate (acc b : Byte) : Byte :=
  acc + b

/-- `len_over` (R19, R91): unsigned compare of the length byte with `MAX_PAYLOAD`. -/
def lenOver (b : Byte) : Bool :=
  decide (maxPayload < b.toNat)

/-- `len_zero` (R19). -/
def lenZero (b : Byte) : Bool :=
  b == 0

/-- The negation of `data_last` as R70 tests it: `rx_idx + 1 < rx_len`, with no wrap (R91). -/
def dataMore (idx len : Byte) : Bool :=
  decide (idx.toNat + 1 < len.toNat)

/-- `csum_match`, the compare of the Checksum Validator on all 8 bits (R19, R93). -/
def csumMatch (b expected : Byte) : Bool :=
  b == expected

end Sys2Proof.Machine
end

