-- ==== Sys2Proof/Machine/Operands.lean ====
section
/-! DEFINITION. Operand assembly (R62): signed bytes, four-byte values in the instance's byte order, and the typed payload
records (R57 to R60). -/

namespace Sys2Proof.Machine

/-- `s8` (00_scope.md section 6): the two's-complement reading of a byte. -/
def s8 (b : Byte) : Int :=
  if b.toNat < 128 then (b.toNat : Int) else (b.toNat : Int) - 256

/-- The value of the four payload bytes `p[k..k+3]` (R62): in little-endian order bits 7:0 are the first byte. -/
def wordOfBytes (o : ByteOrder) (b0 b1 b2 b3 : Byte) : Word32 :=
  match o with
  | .little => b3 ++ b2 ++ b1 ++ b0
  | .big => b0 ++ b1 ++ b2 ++ b3

/-- The four payload bytes of a value, lowest index first (R62). -/
def bytesOfWord (o : ByteOrder) (w : Word32) : List Byte :=
  let l := [w.extractLsb' 0 8, w.extractLsb' 8 8, w.extractLsb' 16 8, w.extractLsb' 24 8]
  match o with
  | .little => l
  | .big => l.reverse

/-- The four-byte value at payload index `k` (R62, R32: any index will do). -/
def wordAt (o : ByteOrder) (p : List Byte) (k : Nat) : Word32 :=
  wordOfBytes o (p.getD k 0) (p.getD (k + 1) 0) (p.getD (k + 2) 0) (p.getD (k + 3) 0)

/-- The 48 payload bytes of an IMU record (R58). -/
def imuPayload (o : ByteOrder) (r : ImuRecord) : List Byte :=
  bytesOfWord o r.accelX ++ bytesOfWord o r.accelY ++ bytesOfWord o r.accelZ ++
  bytesOfWord o r.gyroX ++ bytesOfWord o r.gyroY ++ bytesOfWord o r.gyroZ ++
  bytesOfWord o r.magX ++ bytesOfWord o r.magY ++ bytesOfWord o r.magZ ++
  bytesOfWord o r.roll ++ bytesOfWord o r.pitch ++ bytesOfWord o r.yaw

/-- The IMU record of a 48-byte payload, offsets as R58 gives them. -/
def imuOfPayload (o : ByteOrder) (p : List Byte) : ImuRecord where
  accelX := wordAt o p 0
  accelY := wordAt o p 4
  accelZ := wordAt o p 8
  gyroX := wordAt o p 12
  gyroY := wordAt o p 16
  gyroZ := wordAt o p 20
  magX := wordAt o p 24
  magY := wordAt o p 28
  magZ := wordAt o p 32
  roll := wordAt o p 36
  pitch := wordAt o p 40
  yaw := wordAt o p 44

/-- The 16 payload bytes of an ultrasonic record (R59). -/
def ultrasonicPayload (o : ByteOrder) (r : UltrasonicRecord) : List Byte :=
  bytesOfWord o r.front ++ bytesOfWord o r.rear ++ bytesOfWord o r.left ++ bytesOfWord o r.right

/-- The ultrasonic record of a 16-byte payload, offsets as R59 gives them. -/
def ultrasonicOfPayload (o : ByteOrder) (p : List Byte) : UltrasonicRecord where
  front := wordAt o p 0
  rear := wordAt o p 4
  left := wordAt o p 8
  right := wordAt o p 12

/-- The 10 payload bytes of a system-status record (R60). -/
def statusPayload (o : ByteOrder) (r : StatusRecord) : List Byte :=
  bytesOfWord o r.uptime ++ bytesOfWord o r.battery ++ [r.cpuLoad, r.errorCount]

/-- The system-status record of a 10-byte payload, offsets as R60 gives them. -/
def statusOfPayload (o : ByteOrder) (p : List Byte) : StatusRecord where
  uptime := wordAt o p 0
  battery := wordAt o p 4
  cpuLoad := p.getD 8 0
  errorCount := p.getD 9 0

/-- The COMMAND byte of a response frame (R56). -/
def responseCode (P : Params) : Response → Byte
  | .ack => ackCode
  | .nack => P.nackCode
  | .imuData _ => P.rspImuData
  | .ultrasonicData _ => P.rspUltrasonicData
  | .allSensorsData _ => P.rspAllSensorsData
  | .systemStatus _ => P.rspSystemStatus

/-- The payload of a response frame (R56, R58 to R60, R66, R67). -/
def responsePayload (P : Params) : Response → List Byte
  | .ack => []
  | .nack => []
  | .imuData r => imuPayload P.byteOrder r
  | .ultrasonicData r => ultrasonicPayload P.byteOrder r
  | .allSensorsData p => p
  | .systemStatus r => statusPayload P.byteOrder r

end Sys2Proof.Machine
end

