-- ==== Sys2Proof/WellFormed.lean ====
section
/-! DEFINITION. The operands an operation admits: the byte classes of R64 and the payload bound of R48, R100, R101. -/

namespace Sys2Proof

/-- The operands of an operation are among those its rule and its encoding admit. It depends on the instance's command
codes for UNKNOWN alone (R127). -/
def WellFormed (P : Params) : Instr → Bool
  | .rxIdleStart => true
  | .rxIdleSkip b => decide (b ≠ startByte)
  | .rxCmd _ => true
  | .rxLenOver b => decide (maxPayload < b.toNat)
  | .rxLenZero => true
  | .rxLenData b => decide (1 ≤ b.toNat ∧ b.toNat ≤ maxPayload)
  | .rxDataMore _ => true
  | .rxDataLast _ => true
  | .rxCsumOk _ => true
  | .rxCsumBad _ => true
  | .csumFn _ _ _ => true
  | .csumAcc _ _ _ => true
  | .csumCmp _ _ => true
  | .txSend _ p => decide (p.length ≤ maxPayload)
  | .txSendRefuse _ p => decide (maxPayload < p.length)
  | .txAck => true
  | .txNack => true
  | .txByteStart => true
  | .txByteCmd => true
  | .txByteLen => true
  | .txByteData => true
  | .txByteCsum => true
  | .txByteEnd => true
  | .resetAssert => true
  | .motorSetSpeed p => decide (p.length ≤ maxPayload)
  | .motorStop p => decide (p.length ≤ maxPayload)
  | .motorEstop p => decide (p.length ≤ maxPayload)
  | .imuReq p => decide (p.length ≤ maxPayload)
  | .ultrasonicReq p => decide (p.length ≤ maxPayload)
  | .allSensorsReq p => decide (p.length ≤ maxPayload)
  | .ledControl p => decide (p.length ≤ maxPayload)
  | .buzzerControl p => decide (p.length ≤ maxPayload)
  | .statusReq p => decide (p.length ≤ maxPayload)
  | .resetCommand p => decide (p.length ≤ maxPayload)
  | .unknown c p => decide (c ∉ P.commandCodes ∧ p.length ≤ maxPayload)
  | .ack => true
  | .nack => true
  | .imuData _ => true
  | .ultrasonicData _ => true
  | .allSensorsData p => decide (p.length ≤ maxPayload)
  | .systemStatus _ => true

end Sys2Proof
end

