-- ==== Sys2Proof/Decode.lean ====
section
/-! DEFINITION. The decoder, total on every key and every list of bytes and rejecting by name, and after it the encoder.
Two encodings exist (spec/opcode_table.json, 30_encoding.md): the 11-bit selection key of a receiver operation, and the
frame on the wire. The checksum, encoder and reset operations have none ("not selected by a bit pattern"). -/

namespace Sys2Proof

/-! ## The selection key of a receiver operation -/

/-- `rx_state` of its 3-bit code; the codes 5, 6, 7 act exactly as Idle (R10, 92_eei_decisions.md D3). -/
def stateOfCode (c : BitVec 3) : RxState :=
  if c = 1 then .cmd
  else if c = 2 then .length
  else if c = 3 then .data
  else if c = 4 then .checksum
  else .idle

/-- The 3-bit code of `rx_state` (R10). -/
def codeOfState : RxState → BitVec 3
  | .idle => 0
  | .cmd => 1
  | .length => 2
  | .data => 3
  | .checksum => 4

/-- The selection of R64 and R70: the operation for a state and an input byte, given the registers the selection reads
(`rx_idx`, `rx_len`, and the expected checksum, which the accumulator realisation holds in `rx_acc`, R92). -/
def selectReceive (idx len acc : Byte) (st : RxState) (b : Byte) : Instr :=
  match st with
  | .idle => if b = startByte then .rxIdleStart else .rxIdleSkip b
  | .cmd => .rxCmd b
  | .length =>
    if Machine.lenOver b then .rxLenOver b
    else if Machine.lenZero b then .rxLenZero
    else .rxLenData b
  | .data => if Machine.dataMore idx len then .rxDataMore b else .rxDataLast b
  | .checksum => if Machine.csumMatch b acc then .rxCsumOk b else .rxCsumBad b

/-- The key of opcode_table.json: the state code in bits 10:8, the byte in bits 7:0. -/
def keyOf (st : RxState) (b : Byte) : BitVec 11 :=
  codeOfState st ++ b

/-- A receiver operation from its key. Total: every key selects an operation (R64). -/
def decodeKey (idx len acc : Byte) (k : BitVec 11) : Instr :=
  selectReceive idx len acc (stateOfCode (k.extractLsb' 8 3)) (k.extractLsb' 0 8)

/-! ## Frames on the wire -/

/-- The direction of a frame: command codes go host to device (R55), response codes device to host (R56). -/
inductive Direction where
  | toDevice
  | toHost
deriving DecidableEq, Repr

/-- Why a list of bytes is no frame of its direction. -/
inductive Reject where
  /-- There is no byte. -/
  | empty
  /-- The first byte is not START (R46). -/
  | noStart
  /-- The bytes end before the frame does (R52). -/
  | truncated
  /-- LENGTH is 65 to 255 (R48). -/
  | overLength
  /-- CHECKSUM is not the computed sum (R50). -/
  | badChecksum
  /-- Device to host: COMMAND and LENGTH are those of no row of R56. -/
  | notAResponse
deriving DecidableEq, Repr

/-- The dispatcher's selection by the command byte alone (R116). -/
def classify (P : Params) (c : Byte) : Command :=
  if c = cmdMotorSetSpeed then .motorSetSpeed
  else if c = cmdMotorStop then .motorStop
  else if c = P.cmdMotorEstop then .motorEstop
  else if c = P.cmdImuReq then .imuReq
  else if c = P.cmdUltrasonicReq then .ultrasonicReq
  else if c = P.cmdAllSensorsReq then .allSensorsReq
  else if c = P.cmdLed then .ledControl
  else if c = P.cmdBuzzer then .buzzerControl
  else if c = P.cmdStatusReq then .statusReq
  else if c = P.cmdReset then .reset
  else .unknown

/-- The command frame with a given command byte and payload (R55, R116). -/
def commandInstr (P : Params) (c : Byte) (p : List Byte) : Instr :=
  match classify P c with
  | .motorSetSpeed => .motorSetSpeed p
  | .motorStop => .motorStop p
  | .motorEstop => .motorEstop p
  | .imuReq => .imuReq p
  | .ultrasonicReq => .ultrasonicReq p
  | .allSensorsReq => .allSensorsReq p
  | .ledControl => .ledControl p
  | .buzzerControl => .buzzerControl p
  | .statusReq => .statusReq p
  | .reset => .resetCommand p
  | .unknown => .unknown c p

/-- The response frame with a given command byte and payload, if R56 has one (the fixed LENGTHs of R58 to R60, R66). -/
def responseOf (P : Params) (c : Byte) (p : List Byte) : Option Response :=
  if c = ackCode then (if p.length = 0 then some .ack else none)
  else if c = P.nackCode then (if p.length = 0 then some .nack else none)
  else if c = P.rspImuData then
    (if p.length = 48 then some (.imuData (Machine.imuOfPayload P.byteOrder p)) else none)
  else if c = P.rspUltrasonicData then
    (if p.length = 16 then some (.ultrasonicData (Machine.ultrasonicOfPayload P.byteOrder p)) else none)
  else if c = P.rspAllSensorsData then some (.allSensorsData p)
  else if c = P.rspSystemStatus then
    (if p.length = 10 then some (.systemStatus (Machine.statusOfPayload P.byteOrder p)) else none)
  else none

/-- The operation that a response frame is. -/
def responseInstr : Response → Instr
  | .ack => .ack
  | .nack => .nack
  | .imuData r => .imuData r
  | .ultrasonicData r => .ultrasonicData r
  | .allSensorsData p => .allSensorsData p
  | .systemStatus r => .systemStatus r

/-- The frame of one direction with a given command byte and payload. -/
def frameInstr (P : Params) (d : Direction) (c : Byte) (p : List Byte) : Except Reject Instr :=
  match d with
  | .toDevice => .ok (commandInstr P c p)
  | .toHost =>
    match responseOf P c p with
    | some r => .ok (responseInstr r)
    | none => .error .notAResponse

/-- After COMMAND and LENGTH: `L` payload bytes, then CHECKSUM (R45, R53). The END byte is left with the rest: nothing
inspects it (R51). -/
def decodeBody (P : Params) (d : Direction) (c l : Byte) (rest : List Byte) : Except Reject (Instr × List Byte) :=
  if Machine.lenOver l then .error .overLength
  else
    match rest.drop l.toNat with
    | [] => .error .truncated
    | k :: more =>
      if k = Machine.checksum c l (rest.take l.toNat) then
        match frameInstr P d c (rest.take l.toNat) with
        | .ok i => .ok (i, more)
        | .error e => .error e
      else .error .badChecksum

/-- A frame from its bytes (R45), with the bytes after its CHECKSUM. Total. -/
def decodeFrame (P : Params) (d : Direction) : List Byte → Except Reject (Instr × List Byte)
  | [] => .error .empty
  | st :: rest =>
    if st = startByte then
      match rest with
      | c :: l :: more => decodeBody P d c l more
      | _ => .error .truncated
    else .error .noStart

/-! ## The encoder -/

/-- `encode(command, payload)` of R100: START, command, length, payload, checksum, END. -/
def wireFrame (c : Byte) (p : List Byte) : List Byte :=
  [startByte, c, BitVec.ofNat 8 p.length] ++ p ++ [Machine.checksum c (BitVec.ofNat 8 p.length) p, endByte]

/-- The COMMAND byte of a command (R55); UNKNOWN is every other byte and keeps its own. -/
def commandCode (P : Params) (own : Byte) : Command → Byte
  | .motorSetSpeed => cmdMotorSetSpeed
  | .motorStop => cmdMotorStop
  | .motorEstop => P.cmdMotorEstop
  | .imuReq => P.cmdImuReq
  | .ultrasonicReq => P.cmdUltrasonicReq
  | .allSensorsReq => P.cmdAllSensorsReq
  | .ledControl => P.cmdLed
  | .buzzerControl => P.cmdBuzzer
  | .statusReq => P.cmdStatusReq
  | .reset => P.cmdReset
  | .unknown => own

/-- The encoding of an operation that has one: a selection key, or the bytes of a frame and its direction. -/
inductive Code where
  | key (k : BitVec 11)
  | wire (d : Direction) (bytes : List Byte)
deriving DecidableEq, Repr

/-- The wire form of a command frame. -/
def commandCodeWord (P : Params) (c : Command) (p : List Byte) : Option Code :=
  some (.wire .toDevice (wireFrame (commandCode P 0 c) p))

/-- The wire form of a response frame. -/
def responseCodeWord (P : Params) (r : Response) : Option Code :=
  some (.wire .toHost (wireFrame (Machine.responseCode P r) (Machine.responsePayload P r)))

/-- The encoding of an operation, from the tables of R55, R56, R64; `none` for an operation that the table says is "not
selected by a bit pattern". -/
def encode (P : Params) : Instr → Option Code
  | .rxIdleStart => some (.key (keyOf .idle startByte))
  | .rxIdleSkip b => some (.key (keyOf .idle b))
  | .rxCmd b => some (.key (keyOf .cmd b))
  | .rxLenOver b => some (.key (keyOf .length b))
  | .rxLenZero => some (.key (keyOf .length 0))
  | .rxLenData b => some (.key (keyOf .length b))
  | .rxDataMore b => some (.key (keyOf .data b))
  | .rxDataLast b => some (.key (keyOf .data b))
  | .rxCsumOk b => some (.key (keyOf .checksum b))
  | .rxCsumBad b => some (.key (keyOf .checksum b))
  | .csumFn _ _ _ => none
  | .csumAcc _ _ _ => none
  | .csumCmp _ _ => none
  | .txSend _ _ => none
  | .txSendRefuse _ _ => none
  | .txAck => none
  | .txNack => none
  | .txByteStart => none
  | .txByteCmd => none
  | .txByteLen => none
  | .txByteData => none
  | .txByteCsum => none
  | .txByteEnd => none
  | .resetAssert => none
  | .motorSetSpeed p => commandCodeWord P .motorSetSpeed p
  | .motorStop p => commandCodeWord P .motorStop p
  | .motorEstop p => commandCodeWord P .motorEstop p
  | .imuReq p => commandCodeWord P .imuReq p
  | .ultrasonicReq p => commandCodeWord P .ultrasonicReq p
  | .allSensorsReq p => commandCodeWord P .allSensorsReq p
  | .ledControl p => commandCodeWord P .ledControl p
  | .buzzerControl p => commandCodeWord P .buzzerControl p
  | .statusReq p => commandCodeWord P .statusReq p
  | .resetCommand p => commandCodeWord P .reset p
  | .unknown c p => some (.wire .toDevice (wireFrame (commandCode P c .unknown) p))
  | .ack => responseCodeWord P .ack
  | .nack => responseCodeWord P .nack
  | .imuData r => responseCodeWord P (.imuData r)
  | .ultrasonicData r => responseCodeWord P (.ultrasonicData r)
  | .allSensorsData p => responseCodeWord P (.allSensorsData p)
  | .systemStatus r => responseCodeWord P (.systemStatus r)

/-- The operation an encoding stands for, given the registers that the selection of a receiver operation reads. -/
def decode (P : Params) (idx len acc : Byte) : Code → Except Reject Instr
  | .key k => .ok (decodeKey idx len acc k)
  | .wire d bytes =>
    match decodeFrame P d bytes with
    | .ok (i, _) => .ok i
    | .error e => .error e

/-! ## The words of spec/opcode_table.json -/

/-- The three header bytes of the table's 24-bit frame key: START in bits 23:16, COMMAND in 15:8, LENGTH in 7:0. -/
def headerOfWord (w : Nat) : Byte × Byte × Byte :=
  (BitVec.ofNat 8 (w / 65536), BitVec.ofNat 8 (w / 256), BitVec.ofNat 8 w)

/-- The frame a 24-bit key opens: LENGTH payload bytes of zero, the CHECKSUM that these have, END. The table gives no bit
to these; the checksum is no free operand (R50) and is completed (DESIGN CHOICE, log entry 15). -/
def tableFrameBytes (w : Nat) : List Byte :=
  let (st, c, l) := headerOfWord w
  let p : List Byte := List.replicate l.toNat 0
  [st, c, l] ++ p ++ [Machine.checksum c l p, endByte]

/-- The direction a 24-bit key is read in: to the host if it opens a row of R56, else to the device. A key has no bit for
the direction, and as a frame to the device a response code is UNKNOWN (R63; DESIGN CHOICE, log entry 15). -/
def directionOfWord (P : Params) (w : Nat) : Direction :=
  match decodeFrame P .toHost (tableFrameBytes w) with
  | .ok _ =>
    match decodeFrame P .toDevice (tableFrameBytes w) with
    | .ok (.unknown _ _, _) => .toHost
    | _ => .toDevice
  | .error _ => .toDevice

/-- The encoding that a word of spec/opcode_table.json stands for: an 11-bit selection key (given as 16 bits at most), or
a 24-bit frame key. -/
def codeOfWord (P : Params) (nbits w : Nat) : Code :=
  if nbits ≤ 16 then .key (BitVec.ofNat 11 w)
  else .wire (directionOfWord P w) (tableFrameBytes w)

/-- What the decoder reads from a word numbered as spec/opcode_table.json numbers it, with the codes of the table (the
defaults of R9) and, for a receiver operation, the registers at their reset values (log entry 15). -/
def decodeTableWord (nbits w : Nat) : Option Instr :=
  match decode Params.specDefault 0 0 0 (codeOfWord Params.specDefault nbits w) with
  | .ok i => some i
  | .error _ => none

end Sys2Proof
end

