-- ==== Sys2Proof/Machine/State.lean ====
section
/-! DEFINITION. The state of the block and of its environment as the spec gives them, as plain data; the state after
reset. -/

namespace Sys2Proof.Machine

/-- `RXBUF` as (index, byte) pairs in one canonical form: indices strictly rising, none above 63, no byte equal to what
an unlisted index reads as. -/
abbrev Memory := List Host.Cell

/-- What a cell nothing has written reads as. Its reset value is unspecified (R14, R160); DESIGN CHOICE, log entry 5. -/
def unlistedByte : Byte := 0

/-- The canonical form from index `lo` on. -/
def Memory.wfFrom : Nat → Memory → Bool
  | _, [] => true
  | lo, (a, v) :: m => decide (lo ≤ a) && decide (a < maxPayload) && (v != unlistedByte) && Memory.wfFrom (a + 1) m

/-- The canonical form of `RXBUF`. -/
def Memory.wf (m : Memory) : Bool :=
  Memory.wfFrom 0 m

/-- The registers of the Frame Receiver (R10 to R16), under the spec's names without the prefix `rx_`. -/
structure Rx where
  state : RxState
  cmd : Byte
  len : Byte
  idx : Byte
  buf : Memory
  csum : Byte
  acc : Byte
deriving DecidableEq, Repr

/-- The registers of the byte-serial encoder (R21), under the spec's names without the prefix `tx_`, and the requester's
payload `P` of R110, which stays unchanged while a request is in progress. -/
structure Tx where
  state : TxState
  cmd : Byte
  len : Byte
  idx : Byte
  acc : Byte
  payload : List Byte
deriving DecidableEq, Repr

/-- A validated frame, the content of `FrameOut(cmd, len, payload, csum)` (R70, D27). -/
structure Frame where
  cmd : Byte
  len : Byte
  payload : List Byte
  csum : Byte
deriving DecidableEq, Repr

/-- The event of a receiver step (R70). -/
inductive RxEvent where
  | noEvent
  | frameOut (f : Frame)
  | nackOut
deriving DecidableEq, Repr

/-- A send request (R100 to R103) or a typed response frame (R56) that a requester asks the encoder for. -/
inductive Request where
  | send (command : Byte) (payload : List Byte)
  | ack
  | nack
  | response (r : Response)
deriving DecidableEq, Repr

/-- The nine operations of the handler registry, with their arguments (R128). -/
inductive Handler where
  | setMotorSpeed (left right : Int)
  | stop
  | emergencyStop
  | requestImuSample
  | requestUltrasonicSample
  | requestSystemStatus
  | setIndicatorState (state : Byte)
  | setAudibleAlertState (state : Byte)
  | reset
deriving DecidableEq, Repr

/-- What one handler call does: "any finite list of send requests and then returns", or never returns (U8, R175). -/
structure HandlerRun where
  sends : List Request
  returns : Bool
deriving DecidableEq, Repr

/-- The two waits of the dispatcher contract; they have no stated duration (R122, R126, R153). -/
inductive Wait where
  | settleGap
  | flush
deriving DecidableEq, Repr

/-- One thing a receiver step still has to do after its checksum byte: what the dispatcher does with a frame (R117 to
R127), or the NACK of R80. -/
inductive Action where
  | call (h : Handler)
  | send (r : Request)
  | wait (w : Wait)
  /-- The handler just called never returns. -/
  | hang
  /-- The dispatch or NACK is over: `frame_done`, and `rx_ready` rises (R24). -/
  | done
deriving DecidableEq, Repr

/-- What the environment does next at the block's ports (R24). -/
inductive Input where
  /-- A byte at the RX port. -/
  | rx (b : Byte)
  /-- A request at the SEND port, from outside any receiver step (R104). -/
  | send (r : Request)
  /-- The RESET port. -/
  | reset
  /-- The sink becomes ready, or stops taking bytes (R106). -/
  | sink (ready : Bool)
  /-- Nothing at any port for the time of one step. -/
  | tick
deriving DecidableEq, Repr

/-- What is seen from outside, in order: the observables of R7, and the handler calls and waits of the dispatcher. -/
inductive Obs where
  | tx (b : Byte)
  | frameOut (f : Frame)
  | sendResult (ok : Bool)
  | call (h : Handler)
  | wait (w : Wait)
deriving DecidableEq, Repr

/-- What the last stand-alone CSUM.FN or CSUM.CMP handed to its caller (the model's own; log entry 9). -/
inductive FnResult where
  | none
  | byte (v : Byte)
  | bit (v : Bool)
deriving DecidableEq, Repr

/-- The state of one instance (R5) and of its environment. INVENTORY.md lists every field with its rule. -/
structure State where
  /-- The constants of the instance; no operation writes them (R20). -/
  params : Params
  rx : Rx
  tx : Tx
  /-- The FRAME port: a validated frame whose dispatch has not begun (R24). -/
  frame : Option Frame
  /-- What the running dispatch or NACK still has to do. -/
  agenda : List Action
  /-- A dispatch that never returns is in progress (R126, R163, R175). -/
  hung : Bool
  /-- `tx_ready` (R24, R106). -/
  sinkReady : Bool
  /-- What the handlers will do, call by call (U8). -/
  handlers : List HandlerRun
  /-- What the environment will offer at the ports, in the order in which the block takes notice of it (R165). -/
  inputs : List Input
  /-- What has been seen from outside so far, oldest first (R7). -/
  trace : List Obs
  /-- The model's own. -/
  fnResult : FnResult
deriving DecidableEq, Repr

/-- Why a step can stop with a fault: never. "Never `fault`: the block has no fault" (93_implementation_defined.md U10),
so there is no constructor and nobody raises one. -/
inductive Fault where
deriving DecidableEq, Repr

/-- Why an operation has no meaning in the model. -/
inductive Refusal where
  /-- Raised by an arm of `exec` whose operation has no meaning yet; no arm does. Safe: a run stops there. -/
  | notModelled (mnemonic : String)
deriving DecidableEq, Repr

/-- The receiver's registers after reset: Idle (R160); the others are unspecified and 0 here (DESIGN CHOICE, log entries
4 and 5). -/
def Rx.reset : Rx where
  state := .idle
  cmd := 0
  len := 0
  idx := 0
  buf := []
  csum := 0
  acc := 0

/-- The encoder's registers after reset: TxIdle (R160); the others are unspecified and 0 here (DESIGN CHOICE, log
entries 4 and 19). -/
def Tx.reset : Tx where
  state := .idle
  cmd := 0
  len := 0
  idx := 0
  acc := 0
  payload := []

/-- The machine after reset (R160): receiver Idle, encoder TxIdle, TX stream empty, no event pending, nothing offered. -/
def State.reset : State where
  params := Params.specDefault
  rx := Rx.reset
  tx := Tx.reset
  frame := none
  agenda := []
  hung := false
  sinkReady := true
  handlers := []
  inputs := []
  trace := []
  fnResult := .none

end Sys2Proof.Machine
end

