-- ==== Sys2Proof/Machine/Ops.lean ====
section
/-! DEFINITION. The named operations over the state: the buffer, the accumulators, the outputs, the send operation, and
what a receiver step does after its checksum byte (dispatch or NACK), the block's counterpart of taking an exception. -/

namespace Sys2Proof.Machine

/-! ## The payload buffer (R33 to R35) -/

/-- The byte at an index. -/
def readCell : Memory → Nat → Byte
  | [], _ => unlistedByte
  | (a, v) :: m, x => if a = x then v else readCell m x

/-- The cells with the byte at index `x` put in front; a byte that an unlisted index reads as is not listed. -/
def consCell (x : Nat) (v : Byte) (m : Memory) : Memory :=
  if v = unlistedByte then m else (x, v) :: m

/-- A byte stored at an index, keeping the canonical form. -/
def storeCell : Memory → Nat → Byte → Memory
  | [], x, v => consCell x v []
  | (a, w) :: m, x, v =>
    if x < a then consCell x v ((a, w) :: m)
    else if x = a then consCell x v m
    else (a, w) :: storeCell m x v

/-- `MemWrite(RXBUF, i, 1, v)`; a write at an index above 63 is no write (R83, D26; log entry 6). -/
def writeBuf (m : Memory) (i : Nat) (v : Byte) : Memory :=
  if i < maxPayload then storeCell m i v else m

/-- `rx_buf[0 .. n-1]` as a list (R35). -/
def readPayload (m : Memory) (n : Nat) : List Byte :=
  (List.range n).map (readCell m)

/-! ## Updates of the state -/

def State.withRx (s : State) (r : Rx) : State := { s with rx := r }
def State.withTx (s : State) (t : Tx) : State := { s with tx := t }
def State.withFrame (s : State) (f : Option Frame) : State := { s with frame := f }
def State.withAgenda (s : State) (l : List Action) : State := { s with agenda := l }
def State.withHung (s : State) (b : Bool) : State := { s with hung := b }
def State.withSink (s : State) (b : Bool) : State := { s with sinkReady := b }
def State.withHandlers (s : State) (l : List HandlerRun) : State := { s with handlers := l }
def State.withInputs (s : State) (l : List Input) : State := { s with inputs := l }
def State.withFnResult (s : State) (v : FnResult) : State := { s with fnResult := v }

/-- More is seen from outside. -/
def State.emit (s : State) (o : List Obs) : State := { s with trace := s.trace ++ o }

/-- `tx(b)` (R106): one byte handed to the sink. -/
def txByte (b : Byte) (s : State) : State :=
  s.emit [.tx b]

/-! ## What has been seen from outside (R7) -/

/-- The byte, if it is one of the TX stream. -/
def seenByte : Obs → Option Byte
  | .tx b => some b
  | .frameOut _ => none
  | .sendResult _ => none
  | .call _ => none
  | .wait _ => none

/-- The frame, if one was delivered. -/
def seenFrame : Obs → Option Frame
  | .tx _ => none
  | .frameOut f => some f
  | .sendResult _ => none
  | .call _ => none
  | .wait _ => none

/-- The result, if it is one of a send request. -/
def seenResult : Obs → Option Bool
  | .tx _ => none
  | .frameOut _ => none
  | .sendResult ok => some ok
  | .call _ => none
  | .wait _ => none

/-- The handler, if one was called. -/
def seenCall : Obs → Option Handler
  | .tx _ => none
  | .frameOut _ => none
  | .sendResult _ => none
  | .call h => some h
  | .wait _ => none

/-- The TX stream. -/
def State.txStream (s : State) : List Byte := s.trace.filterMap seenByte

/-- The validated frames delivered to the dispatcher. -/
def State.framesOut (s : State) : List Frame := s.trace.filterMap seenFrame

/-- The results of the send requests. -/
def State.sendResults (s : State) : List Bool := s.trace.filterMap seenResult

/-- The handler calls. -/
def State.handlerCalls (s : State) : List Handler := s.trace.filterMap seenCall

/-! ## Checksum accumulators (R92) -/

/-- The accumulator after an update: loaded with the byte, or the byte added modulo 256. -/
def accUpdate (op : AccOp) (acc b : Byte) : Byte :=
  match op with
  | .load => b
  | .add => accumulate acc b

/-! ## The send operation (R100, R101, R110) -/

/-- A send, and a dispatch, are one step: the instance is at the transaction level, the sink takes bytes, and no frame is
half written (log entries 1, 22, 23). -/
def atomic (s : State) : Bool :=
  s.params.level == .transaction && s.sinkReady && s.tx.state == .idle

/-- TX.SEND.REFUSE (R101): failure, nothing written. -/
def refuseSend (s : State) : State :=
  s.emit [.sendResult false]

/-- The byte-serial engine accepts a request (R110). -/
def acceptSend (t : Tx) (c : Byte) (p : List Byte) : Tx :=
  { t with state := .start, cmd := c, len := BitVec.ofNat 8 p.length, idx := 0, payload := p }

/-- `send(command, payload)`: refused above 64 bytes; else the whole frame at once, or accepted by the byte-serial
engine, or held until the frame being written ends (R100, R101, R105, R110). -/
def send (c : Byte) (p : List Byte) (s : State) : State :=
  if maxPayload < p.length then refuseSend s
  else if atomic s then s.emit ((wireFrame c p).map Obs.tx ++ [.sendResult true])
  else if s.tx.state = .idle then s.withTx (acceptSend s.tx c p)
  else s.withAgenda (s.agenda ++ [.send (.send c p)])

/-- The COMMAND byte of a request. -/
def requestCode (P : Params) : Request → Byte
  | .send c _ => c
  | .ack => ackCode
  | .nack => P.nackCode
  | .response r => responseCode P r

/-- The payload of a request. -/
def requestPayload (P : Params) : Request → List Byte
  | .send _ p => p
  | .ack => []
  | .nack => []
  | .response r => responsePayload P r

/-- A request handed to the encoder: "All use the same `send`" (R104). -/
def sendRequest (r : Request) (s : State) : State :=
  send (requestCode s.params r) (requestPayload s.params r) s

/-- Requests handed to the encoder one after another. -/
def sendAll : List Request → State → State
  | [], s => s
  | r :: rs, s => sendAll rs (sendRequest r s)

/-! ## Handlers (R128 to R130) -/

/-- What the next handler call does; beyond the list it sends nothing and returns (log entry 10). -/
def nextRun (s : State) : HandlerRun :=
  s.handlers.headD { sends := [], returns := true }

/-- The call never returns: the handler says so, or it is `reset()` (R126, R128). DESIGN CHOICE, log entry 28: what it has
sent makes no difference, so a handler that sent its own response and does not return blocks the dispatcher (R129). -/
def neverReturns (h : Handler) (e : HandlerRun) : Bool :=
  h == .reset || !e.returns

/-- The handler just called never returns, so nothing of the dispatch follows (R126, R175). -/
def hang (s : State) : State :=
  (s.withHung true).withAgenda []

/-- A handler call: seen from outside, then its sends, then it returns or not; the dispatch goes on only if it returns,
whether or not it has sent a response (R129; DESIGN CHOICE, log entry 28). -/
def callHandler (h : Handler) (s : State) : State :=
  let e := nextRun s
  let called := (s.emit [.call h]).withHandlers s.handlers.tail
  if atomic called then
    if neverReturns h e then hang (sendAll e.sends called) else sendAll e.sends called
  else
    called.withAgenda (e.sends.map Action.send ++ (if neverReturns h e then [.hang] else []) ++ called.agenda)

/-! ## What a receiver step does after its checksum byte (R80, R85, R115) -/

/-- One action. -/
def perform (a : Action) (s : State) : State :=
  match a with
  | .call h => callHandler h s
  | .send r => sendRequest r s
  | .wait w => s.emit [.wait w]
  | .hang => hang s
  | .done => s

/-- The action is a handler call that never returns. -/
def blocks (a : Action) (s : State) : Bool :=
  match a with
  | .call h => neverReturns h (nextRun s)
  | .send _ => false
  | .wait _ => false
  | .hang => true
  | .done => false

/-- The actions one after another, up to one that never returns. -/
def runActions : List Action → State → State
  | [], s => s
  | a :: as, s => if blocks a s then perform a s else runActions as (perform a s)

/-- A dispatch or a NACK: to completion inside the step (R85), or, where sends are not one step, as the agenda that the
following steps work off before the next byte is accepted (R24, R38). -/
def dispatch (as : List Action) (s : State) : State :=
  if atomic s then runActions as s
  else s.withAgenda (s.agenda ++ as ++ [.done])

/-! ## The actions of each command (R117 to R127) -/

/-- NACK and nothing else (R130). -/
def nackActions : List Action := [.send .nack]

/-- R117. -/
def motorSetSpeedActions : List Byte → List Action
  | [l, r] => [.call (.setMotorSpeed (s8 l) (s8 r)), .send .ack]
  | _ => nackActions

/-- R118. -/
def motorStopActions : List Action := [.call .stop, .send .ack]

/-- R119. -/
def motorEstopActions : List Action := [.call .emergencyStop, .send .ack]

/-- R120. -/
def imuReqActions : List Action := [.call .requestImuSample]

/-- R121. -/
def ultrasonicReqActions : List Action := [.call .requestUltrasonicSample]

/-- R125. -/
def statusReqActions : List Action := [.call .requestSystemStatus]

/-- The handler of an element of `ALL_SENSORS_SEQUENCE`. -/
def queryHandler : Query → Handler
  | .imu => .requestImuSample
  | .ultrasonic => .requestUltrasonicSample
  | .status => .requestSystemStatus

/-- R122: the handlers in order, the gap between calls and not after the last. -/
def allSensorsActions : List Query → List Action
  | [] => []
  | [q] => [.call (queryHandler q)]
  | q :: qs => .call (queryHandler q) :: .wait .settleGap :: allSensorsActions qs

/-- R123. -/
def ledControlActions : List Byte → List Action
  | [v] => [.call (.setIndicatorState v), .send .ack]
  | _ => nackActions

/-- R124. -/
def buzzerControlActions : List Byte → List Action
  | [v] => [.call (.setAudibleAlertState v), .send .ack]
  | _ => nackActions

/-- R126: the ACK comes first; the handler does not return. -/
def resetCommandActions : List Action := [.send .ack, .wait .flush, .call .reset]

/-- What the dispatcher does with a command (R116). -/
def commandActions (P : Params) (c : Command) (p : List Byte) : List Action :=
  match c with
  | .motorSetSpeed => motorSetSpeedActions p
  | .motorStop => motorStopActions
  | .motorEstop => motorEstopActions
  | .imuReq => imuReqActions
  | .ultrasonicReq => ultrasonicReqActions
  | .allSensorsReq => allSensorsActions P.allSensors
  | .ledControl => ledControlActions p
  | .buzzerControl => buzzerControlActions p
  | .statusReq => statusReqActions
  | .reset => resetCommandActions
  | .unknown => nackActions

/-- The validated frame reaches the dispatcher (R79): seen from outside, then dispatched inside the step, or held at the
FRAME port until the dispatcher takes it (R24). -/
def deliver (f : Frame) (s : State) : State :=
  let seen := s.emit [.frameOut f]
  if atomic seen then runActions (commandActions seen.params (classify seen.params f.cmd) f.payload) seen
  else seen.withFrame (some f)

end Sys2Proof.Machine
end

