-- ==== Sys2Proof/Machine/Checksum.lean ====
section
/-! DEFINITION. The Checksum Validator's operations (spec/41_checksum.md). Inside the block they are parts of receiver
and encoder operations, which use the same functions; on their own they hand their result to the caller (log entry 9). -/

namespace Sys2Proof.Machine

/-- CSUM.FN (R90): a pure function; the result goes to the caller. -/
def execCsumFn (command length : Byte) (payload : List Byte) (s : State) : Host.Outcome State Fault Refusal :=
  .next (s.withFnResult (.byte (checksum command length payload)))

/-- CSUM.ACC (R92): the update of one accumulator. -/
def execCsumAcc (side : AccSide) (op : AccOp) (b : Byte) (s : State) : Host.Outcome State Fault Refusal :=
  match side with
  | .rx => .next (s.withRx { s.rx with acc := accUpdate op s.rx.acc b })
  | .tx => .next (s.withTx { s.tx with acc := accUpdate op s.tx.acc b })

/-- CSUM.CMP (R93): the result is not stored in the block; it goes to the caller. -/
def execCsumCmp (b expected : Byte) (s : State) : Host.Outcome State Fault Refusal :=
  .next (s.withFnResult (.bit (csumMatch b expected)))

end Sys2Proof.Machine
end

