-- ==== Sys2Proof/Machine/Commands.lean ====
section
/-! DEFINITION. The command frames (spec/43_dispatcher.md): what the dispatcher does with a validated frame. LENGTH is the
length of the payload (D27); the dispatcher does not use the checksum (R115). -/

namespace Sys2Proof.Machine

/-- MOTOR_SET_SPEED (R117). -/
def execMotorSetSpeed (payload : List Byte) (s : State) : Host.Outcome State Fault Refusal :=
  .next (dispatch (motorSetSpeedActions payload) s)

/-- MOTOR_STOP (R118): the payload is ignored. -/
def execMotorStop (_payload : List Byte) (s : State) : Host.Outcome State Fault Refusal :=
  .next (dispatch motorStopActions s)

/-- MOTOR_ESTOP (R119): the payload is ignored. -/
def execMotorEstop (_payload : List Byte) (s : State) : Host.Outcome State Fault Refusal :=
  .next (dispatch motorEstopActions s)

/-- IMU_REQ (R120): the payload is ignored. -/
def execImuReq (_payload : List Byte) (s : State) : Host.Outcome State Fault Refusal :=
  .next (dispatch imuReqActions s)

/-- ULTRASONIC_REQ (R121): the payload is ignored. -/
def execUltrasonicReq (_payload : List Byte) (s : State) : Host.Outcome State Fault Refusal :=
  .next (dispatch ultrasonicReqActions s)

/-- ALL_SENSORS_REQ (R122): the payload is ignored. -/
def execAllSensorsReq (_payload : List Byte) (s : State) : Host.Outcome State Fault Refusal :=
  .next (dispatch (allSensorsActions s.params.allSensors) s)

/-- LED_CONTROL (R123). -/
def execLedControl (payload : List Byte) (s : State) : Host.Outcome State Fault Refusal :=
  .next (dispatch (ledControlActions payload) s)

/-- BUZZER_CONTROL (R124). -/
def execBuzzerControl (payload : List Byte) (s : State) : Host.Outcome State Fault Refusal :=
  .next (dispatch (buzzerControlActions payload) s)

/-- STATUS_REQ (R125): the payload is ignored. -/
def execStatusReq (_payload : List Byte) (s : State) : Host.Outcome State Fault Refusal :=
  .next (dispatch statusReqActions s)

/-- RESET, the command (R126): the payload is ignored; the dispatch does not return (R163; log entry 11). -/
def execResetCommand (_payload : List Byte) (s : State) : Host.Outcome State Fault Refusal :=
  .next (dispatch resetCommandActions s)

/-- UNKNOWN (R127), the outcome UnknownCommand (R143). -/
def execUnknown (_command : Byte) (_payload : List Byte) (s : State) : Host.Outcome State Fault Refusal :=
  .next (dispatch nackActions s)

end Sys2Proof.Machine
end

