-- ==== Sys2Proof/Machine/Encoder.lean ====
section
/-! DEFINITION. The Response Encoder/Sender (spec/42_encoder.md): send requests and the byte-serial steps of R110. -/

namespace Sys2Proof.Machine

/-- TX.SEND (R100, R110). -/
def execTxSend (command : Byte) (payload : List Byte) (s : State) : Host.Outcome State Fault Refusal :=
  .next (send command payload s)

/-- TX.SEND.REFUSE (R101), the outcome SendRefused (R145). -/
def execTxSendRefuse (_command : Byte) (_payload : List Byte) (s : State) : Host.Outcome State Fault Refusal :=
  .next (refuseSend s)

/-- TX.ACK (R102). -/
def execTxAck (s : State) : Host.Outcome State Fault Refusal :=
  .next (sendRequest .ack s)

/-- TX.NACK (R103). -/
def execTxNack (s : State) : Host.Outcome State Fault Refusal :=
  .next (sendRequest .nack s)

/-! ## Byte-serial steps (R110) -/

/-- The payload byte of R110, `P[tx_idx]`. Beyond the payload there is none; no reachable state asks for it (log entry
19). -/
def txPayloadByte (t : Tx) : Byte :=
  t.payload.getD t.idx.toNat 0

/-- TX.BYTE.START: TxStart. -/
def execTxByteStart (s : State) : Host.Outcome State Fault Refusal :=
  .next ((txByte startByte s).withTx { s.tx with state := .cmd })

/-- TX.BYTE.CMD: TxCmd. -/
def execTxByteCmd (s : State) : Host.Outcome State Fault Refusal :=
  .next ((txByte s.tx.cmd s).withTx { s.tx with acc := accUpdate .load s.tx.acc s.tx.cmd, state := .len })

/-- TX.BYTE.LEN: TxLen. -/
def execTxByteLen (s : State) : Host.Outcome State Fault Refusal :=
  .next ((txByte s.tx.len s).withTx
    { s.tx with
      acc := accUpdate .add s.tx.acc s.tx.len
      state := if 0 < s.tx.len.toNat then .data else .csum })

/-- TX.BYTE.DATA: TxData; the test reads `tx_idx` from before the step. -/
def execTxByteData (s : State) : Host.Outcome State Fault Refusal :=
  .next ((txByte (txPayloadByte s.tx) s).withTx
    { s.tx with
      acc := accUpdate .add s.tx.acc (txPayloadByte s.tx)
      idx := s.tx.idx + 1
      state := if s.tx.idx.toNat + 1 = s.tx.len.toNat then .csum else .data })

/-- TX.BYTE.CSUM: TxCsum. -/
def execTxByteCsum (s : State) : Host.Outcome State Fault Refusal :=
  .next ((txByte s.tx.acc s).withTx { s.tx with state := .fin })

/-- TX.BYTE.END: TxEnd; the request has succeeded. -/
def execTxByteEnd (s : State) : Host.Outcome State Fault Refusal :=
  .next (((txByte endByte s).emit [.sendResult true]).withTx { s.tx with state := .idle })

end Sys2Proof.Machine
end

