-- ==== Sys2Proof/Machine/Receiver.lean ====
section
/-! DEFINITION. The Frame Receiver (spec/40_receiver.md): the register changes of its ten operations, the meanings that
use them, and the step function of R70. -/

namespace Sys2Proof.Machine

/-! ## Register changes -/

/-- R71. -/
def rxOnIdleStart (r : Rx) : Rx := { r with state := .cmd }

/-- R72. -/
def rxOnIdleSkip (r : Rx) : Rx := { r with state := .idle }

/-- R73. -/
def rxOnCmd (r : Rx) (b : Byte) : Rx := { r with cmd := b, acc := accUpdate .load r.acc b, state := .length }

/-- R74. -/
def rxOnLenOver (r : Rx) (b : Byte) : Rx := { r with len := b, state := .idle }

/-- R75: `rx_idx` and `rx_buf` are not written. -/
def rxOnLenZero (r : Rx) : Rx := { r with len := 0, acc := accUpdate .add r.acc 0, state := .checksum }

/-- R76. -/
def rxOnLenData (r : Rx) (b : Byte) : Rx :=
  { r with len := b, idx := 0, acc := accUpdate .add r.acc b, state := .data }

/-- The part R77 and R78 share: store, then increment, then add. -/
def rxStore (r : Rx) (b : Byte) : Rx :=
  { r with buf := writeBuf r.buf r.idx.toNat b, idx := r.idx + 1, acc := accUpdate .add r.acc b }

/-- R77. -/
def rxOnDataMore (r : Rx) (b : Byte) : Rx := { rxStore r b with state := .data }

/-- R78. -/
def rxOnDataLast (r : Rx) (b : Byte) : Rx := { rxStore r b with state := .checksum }

/-- The part R79 and R80 share. -/
def rxOnCsum (r : Rx) (b : Byte) : Rx := { r with csum := b, state := .idle }

/-- The frame that R79 emits: the content of the buffer at the moment the checksum byte is accepted (R43). -/
def rxFrame (r : Rx) (b : Byte) : Frame where
  cmd := r.cmd
  len := r.len
  payload := readPayload r.buf r.len.toNat
  csum := b

/-! ## Meanings -/

/-- RX.IDLE.START (R71). -/
def execRxIdleStart (s : State) : Host.Outcome State Fault Refusal :=
  .next (s.withRx (rxOnIdleStart s.rx))

/-- RX.IDLE.SKIP (R72). -/
def execRxIdleSkip (_b : Byte) (s : State) : Host.Outcome State Fault Refusal :=
  .next (s.withRx (rxOnIdleSkip s.rx))

/-- RX.CMD (R73). -/
def execRxCmd (b : Byte) (s : State) : Host.Outcome State Fault Refusal :=
  .next (s.withRx (rxOnCmd s.rx b))

/-- RX.LEN.OVER (R74), the outcome FramingDrop (R141): silent. -/
def execRxLenOver (b : Byte) (s : State) : Host.Outcome State Fault Refusal :=
  .next (s.withRx (rxOnLenOver s.rx b))

/-- RX.LEN.ZERO (R75). -/
def execRxLenZero (s : State) : Host.Outcome State Fault Refusal :=
  .next (s.withRx (rxOnLenZero s.rx))

/-- RX.LEN.DATA (R76). -/
def execRxLenData (b : Byte) (s : State) : Host.Outcome State Fault Refusal :=
  .next (s.withRx (rxOnLenData s.rx b))

/-- RX.DATA.MORE (R77). -/
def execRxDataMore (b : Byte) (s : State) : Host.Outcome State Fault Refusal :=
  .next (s.withRx (rxOnDataMore s.rx b))

/-- RX.DATA.LAST (R78). -/
def execRxDataLast (b : Byte) (s : State) : Host.Outcome State Fault Refusal :=
  .next (s.withRx (rxOnDataLast s.rx b))

/-- RX.CSUM.OK (R79): the frame is delivered, and the dispatch belongs to this step (R85). -/
def execRxCsumOk (b : Byte) (s : State) : Host.Outcome State Fault Refusal :=
  .next (deliver (rxFrame s.rx b) (s.withRx (rxOnCsum s.rx b)))

/-- RX.CSUM.BAD (R80), the outcome ChecksumMismatch (R142): one NACK, nothing delivered. -/
def execRxCsumBad (b : Byte) (s : State) : Host.Outcome State Fault Refusal :=
  .next (dispatch nackActions (s.withRx (rxOnCsum s.rx b)))

/-! ## The step function as R70 writes it -/

/-- `rx_step(s, b)` (R70), with the expected checksum held in the accumulator (R92, D6). -/
def rxStep (r : Rx) (b : Byte) : Rx × RxEvent :=
  match r.state with
  | .idle => if b = startByte then (rxOnIdleStart r, .noEvent) else (rxOnIdleSkip r, .noEvent)
  | .cmd => (rxOnCmd r b, .noEvent)
  | .length =>
    if maxPayload < b.toNat then (rxOnLenOver r b, .noEvent)
    else if b = 0 then (rxOnLenZero r, .noEvent)
    else (rxOnLenData r b, .noEvent)
  | .data =>
    if r.idx.toNat + 1 < r.len.toNat then (rxOnDataMore r b, .noEvent) else (rxOnDataLast r b, .noEvent)
  | .checksum =>
    if b = r.acc then (rxOnCsum r b, .frameOut (rxFrame r b)) else (rxOnCsum r b, .nackOut)

/-- A receiver fed with bytes, one after another (R4, R88): its registers after them, and the events in order. -/
def rxFeed : Rx → List Byte → Rx × List RxEvent
  | r, [] => (r, [])
  | r, b :: bs =>
    let (r1, e) := rxStep r b
    let (r2, es) := rxFeed r1 bs
    (r2, if e = .noEvent then es else e :: es)

end Sys2Proof.Machine
end

