-- ==== Sys2Proof/Machine/ResetLine.lean ====
section
/-! DEFINITION. The RESET port (spec/70_reset_and_hazards.md R160 to R163). -/

namespace Sys2Proof.Machine

/-- RESET.ASSERT: the registers take their reset values; a frame partly received, partly written or waiting, and a
dispatch in progress, are forgotten; no output (R161, R162; log entries 4, 5, 12). -/
def execResetAssert (s : State) : Host.Outcome State Fault Refusal :=
  .next { s with rx := Rx.reset, tx := Tx.reset, frame := none, agenda := [], hung := false }

end Sys2Proof.Machine
end

