-- ==== Sys2Proof/Machine/Responses.lean ====
section
/-! DEFINITION. The response frames (R56 to R60, R66, R67): each is the send of its command byte and typed payload (R100). -/

namespace Sys2Proof.Machine

/-- ACK, the response frame (R66, R102). -/
def execAck (s : State) : Host.Outcome State Fault Refusal :=
  .next (sendRequest (.response .ack) s)

/-- NACK, the response frame (R66, R103). -/
def execNack (s : State) : Host.Outcome State Fault Refusal :=
  .next (sendRequest (.response .nack) s)

/-- IMU_DATA (R58). -/
def execImuData (r : ImuRecord) (s : State) : Host.Outcome State Fault Refusal :=
  .next (sendRequest (.response (.imuData r)) s)

/-- ULTRASONIC_DATA (R59). -/
def execUltrasonicData (r : UltrasonicRecord) (s : State) : Host.Outcome State Fault Refusal :=
  .next (sendRequest (.response (.ultrasonicData r)) s)

/-- ALL_SENSORS_DATA (R67): no layout; the block carries it like any frame (93_implementation_defined.md U13; log entry
20). -/
def execAllSensorsData (payload : List Byte) (s : State) : Host.Outcome State Fault Refusal :=
  .next (sendRequest (.response (.allSensorsData payload)) s)

/-- SYSTEM_STATUS (R60). -/
def execSystemStatus (r : StatusRecord) (s : State) : Host.Outcome State Fault Refusal :=
  .next (sendRequest (.response (.systemStatus r)) s)

end Sys2Proof.Machine
end

