-- ==== Sys2Proof/Machine/Dispatch.lean ====
section
/-! DEFINITION. The meaning of each operation, one arm per constructor. -/

namespace Sys2Proof.Machine

/-- The effect of one operation. An operation's selection (R64) is `turn`'s, in Machine/Fetch.lean (log entry 8). -/
def exec (i : Instr) (s : State) : Host.Outcome State Fault Refusal :=
  match i with
  | .rxIdleStart => Sys2Proof.Machine.execRxIdleStart s
  | .rxIdleSkip b => Sys2Proof.Machine.execRxIdleSkip b s
  | .rxCmd b => Sys2Proof.Machine.execRxCmd b s
  | .rxLenOver b => Sys2Proof.Machine.execRxLenOver b s
  | .rxLenZero => Sys2Proof.Machine.execRxLenZero s
  | .rxLenData b => Sys2Proof.Machine.execRxLenData b s
  | .rxDataMore b => Sys2Proof.Machine.execRxDataMore b s
  | .rxDataLast b => Sys2Proof.Machine.execRxDataLast b s
  | .rxCsumOk b => Sys2Proof.Machine.execRxCsumOk b s
  | .rxCsumBad b => Sys2Proof.Machine.execRxCsumBad b s
  | .csumFn command length payload => Sys2Proof.Machine.execCsumFn command length payload s
  | .csumAcc side op b => Sys2Proof.Machine.execCsumAcc side op b s
  | .csumCmp b expected => Sys2Proof.Machine.execCsumCmp b expected s
  | .txSend command payload => Sys2Proof.Machine.execTxSend command payload s
  | .txSendRefuse command payload => Sys2Proof.Machine.execTxSendRefuse command payload s
  | .txAck => Sys2Proof.Machine.execTxAck s
  | .txNack => Sys2Proof.Machine.execTxNack s
  | .txByteStart => Sys2Proof.Machine.execTxByteStart s
  | .txByteCmd => Sys2Proof.Machine.execTxByteCmd s
  | .txByteLen => Sys2Proof.Machine.execTxByteLen s
  | .txByteData => Sys2Proof.Machine.execTxByteData s
  | .txByteCsum => Sys2Proof.Machine.execTxByteCsum s
  | .txByteEnd => Sys2Proof.Machine.execTxByteEnd s
  | .resetAssert => Sys2Proof.Machine.execResetAssert s
  | .motorSetSpeed payload => Sys2Proof.Machine.execMotorSetSpeed payload s
  | .motorStop payload => Sys2Proof.Machine.execMotorStop payload s
  | .motorEstop payload => Sys2Proof.Machine.execMotorEstop payload s
  | .imuReq payload => Sys2Proof.Machine.execImuReq payload s
  | .ultrasonicReq payload => Sys2Proof.Machine.execUltrasonicReq payload s
  | .allSensorsReq payload => Sys2Proof.Machine.execAllSensorsReq payload s
  | .ledControl payload => Sys2Proof.Machine.execLedControl payload s
  | .buzzerControl payload => Sys2Proof.Machine.execBuzzerControl payload s
  | .statusReq payload => Sys2Proof.Machine.execStatusReq payload s
  | .resetCommand payload => Sys2Proof.Machine.execResetCommand payload s
  | .unknown command payload => Sys2Proof.Machine.execUnknown command payload s
  | .ack => Sys2Proof.Machine.execAck s
  | .nack => Sys2Proof.Machine.execNack s
  | .imuData r => Sys2Proof.Machine.execImuData r s
  | .ultrasonicData r => Sys2Proof.Machine.execUltrasonicData r s
  | .allSensorsData payload => Sys2Proof.Machine.execAllSensorsData payload s
  | .systemStatus r => Sys2Proof.Machine.execSystemStatus r s

end Sys2Proof.Machine
end

