-- ==== Sys2Proof/Machine/Fetch.lean ====
section
/-! DEFINITION. Which operation the next step runs. The block fetches no instructions (R18, R41): the environment's next
input, the state that selects (`rx_state`, `tx_state`), and the work that a receiver step has left take the place of a
program counter. -/

namespace Sys2Proof.Machine

/-- What the next step is: an operation at a state (its input already taken), or no operation of the block. -/
inductive Turn where
  | run (i : Instr) (s : State)
  | env (s : State)
deriving DecidableEq, Repr

/-- `send_ready` (R24, R104, R105): no frame is being written and no receiver step has work left. DESIGN CHOICE, log entry
29: a handler that never returns, whichever it is, does not lower it, so `hung` is not read here. -/
def sendReady (s : State) : Bool :=
  s.frame.isNone && s.agenda.isEmpty && s.tx.state == .idle

/-- `rx_ready` (R24, R164, R166): no dispatch and no NACK is in progress, one that never returns included, and no frame is
being written, so that a sink that takes no byte holds the receiver as well (92_eei_decisions.md D12). DESIGN CHOICE, log
entry 27: this is so of an outside request's frame also while the sink takes its bytes. -/
def rxReady (s : State) : Bool :=
  sendReady s && !s.hung

/-- The receiver operation that a byte selects, decoded from its key (R64). -/
def receiveInstr (r : Rx) (b : Byte) : Instr :=
  decodeKey r.idx r.len r.acc (keyOf r.state b)

/-- The operation that a request selects (R64 closing paragraph, R100 to R103). -/
def requestInstr : Request → Instr
  | .send c p => if maxPayload < p.length then .txSendRefuse c p else .txSend c p
  | .ack => .txAck
  | .nack => .txNack
  | .response r => responseInstr r

/-- The byte-serial step that `tx_state` selects (R110). -/
def txInstr : TxState → Option Instr
  | .idle => none
  | .start => some .txByteStart
  | .cmd => some .txByteCmd
  | .len => some .txByteLen
  | .data => some .txByteData
  | .csum => some .txByteCsum
  | .fin => some .txByteEnd

/-- One action of the agenda: a send is an operation of the block, the rest is the environment's. -/
def actionTurn (a : Action) (s : State) : Turn :=
  match a with
  | .send r => .run (requestInstr r) s
  | .call h => .env (perform (.call h) s)
  | .wait w => .env (perform (.wait w) s)
  | .hang => .env (perform .hang s)
  | .done => .env (perform .done s)

/-- The work left from earlier steps that can go on without a new input: the frame at the FRAME port, then the frame being
written if the sink takes bytes, then the agenda. -/
def work (s : State) : Option Turn :=
  match s.frame with
  | some f => some (.run (commandInstr s.params f.cmd f.payload) (s.withFrame none))
  | none =>
    match txInstr s.tx.state with
    | some i => if s.sinkReady then some (.run i s) else none
    | none =>
      match s.agenda with
      | [] => none
      | a :: rest => some (actionTurn a (s.withAgenda rest))

/-- Work, or nothing. -/
def workOrWait (s : State) : Turn :=
  (work s).getD (.env s)

/-- A byte offered while `rx_ready` is low: it waits with the transport while there is work; when the sink is stuck it waits
for ever (R166); when the dispatch never returns it is lost, as R126 says of the reset command. DESIGN CHOICE, log entry 30:
it is lost also when another handler never returns, where R23 and R165 leave it to the transport. -/
def offered (s : State) (rest : List Input) : Turn :=
  match work s with
  | some t => t
  | none => if s.hung then .env (s.withInputs rest) else .env s

/-- The next step (log entries 2 and 16). -/
def turn (s : State) : Turn :=
  match s.inputs with
  | [] => workOrWait s
  | .tick :: rest => workOrWait (s.withInputs rest)
  | .reset :: rest => .run .resetAssert (s.withInputs rest)
  | .sink ready :: rest => .env ((s.withInputs rest).withSink ready)
  | .rx b :: rest => if rxReady s then .run (receiveInstr s.rx b) (s.withInputs rest) else offered s rest
  | .send r :: rest => if sendReady s then .run (requestInstr r) (s.withInputs rest) else workOrWait s

/-! ## Placing an operation as the next to run -/

/-- No work is left, so that the ports are ready. -/
def quiet (s : State) : State :=
  { s with frame := none, agenda := [], hung := false, tx := { s.tx with state := .idle } }

/-- The registers that the selection of a receiver operation reads, at their reset values. -/
def resetSelection (s : State) : State :=
  s.withRx { s.rx with idx := 0, len := 0, acc := 0 }

/-- A receiver operation's key placed: `rx_state` and the byte. -/
def placeKey (k : BitVec 11) (s : State) : State :=
  let q := resetSelection (quiet s)
  (q.withRx { q.rx with state := stateOfCode (k.extractLsb' 8 3) }).withInputs (.rx (k.extractLsb' 0 8) :: s.inputs)

/-- A frame to the device placed at the FRAME port, as a validated frame. -/
def placeFrame (f : Frame) (s : State) : State :=
  ((quiet s).withFrame (some f)).withInputs (.tick :: s.inputs)

/-- A request placed at the SEND port. -/
def placeRequest (r : Request) (s : State) : State :=
  (quiet s).withInputs (.send r :: s.inputs)

/-- The frame and the request of the bytes of a table word. -/
def frameOfBytes : List Byte → Frame
  | _ :: c :: l :: rest =>
    { cmd := c, len := l, payload := rest.take l.toNat, csum := checksum c l (rest.take l.toNat) }
  | _ => { cmd := 0, len := 0, payload := [], csum := 0 }

/-- An encoding placed where the next step fetches it (log entry 16). -/
def placeCode (c : Code) (s : State) : State :=
  match c with
  | .key k => placeKey k s
  | .wire .toDevice bytes => placeFrame (frameOfBytes bytes) s
  | .wire .toHost bytes =>
    let f := frameOfBytes bytes
    match responseOf Params.specDefault f.cmd f.payload with
    | some r => placeRequest (.response r) s
    | none => placeRequest (.send f.cmd f.payload) s

end Sys2Proof.Machine
end

