-- ==== Sys2Proof/Machine/Step.lean ====
section
/-! DEFINITION. One step, and an operation placed as the next to run. -/

namespace Sys2Proof.Machine

/-- One step (R6): the operation whose turn it is, or a step of the environment alone. It always answers a next state. -/
def step (s : State) : Host.Outcome State Fault Refusal :=
  match turn s with
  | .run i t => exec i t
  | .env t => .next t

/-- The state with the operation of a word of spec/opcode_table.json placed as the next to run (log entry 16). -/
def State.withFetchWord (s : State) (nbits w : Nat) : State :=
  placeCode (codeOfWord Params.specDefault nbits w) s

end Sys2Proof.Machine
end

