-- ==== Sys2Proof/Safety.lean ====
section
/-! DEFINITION. The terms in which claims are made: the error outcomes of R140, what a request is seen to do, and the
invariant of R83 with its counterparts for the encoder and the ports. -/

namespace Sys2Proof

open Machine

/-- The five error outcomes (R140). They are names: nothing stores one, and none stops the block. -/
inductive ErrorOutcome where
  | framingDrop
  | checksumMismatch
  | unknownCommand
  | wrongArity
  | sendRefused
deriving DecidableEq, Repr

/-- The outcome that an operation raises (R74, R80, R101, R117, R123, R124, R127; R141 to R145). -/
def raises : Instr → Option ErrorOutcome
  | .rxIdleStart => none
  | .rxIdleSkip _ => none
  | .rxCmd _ => none
  | .rxLenOver _ => some .framingDrop
  | .rxLenZero => none
  | .rxLenData _ => none
  | .rxDataMore _ => none
  | .rxDataLast _ => none
  | .rxCsumOk _ => none
  | .rxCsumBad _ => some .checksumMismatch
  | .csumFn _ _ _ => none
  | .csumAcc _ _ _ => none
  | .csumCmp _ _ => none
  | .txSend _ p => if maxPayload < p.length then some .sendRefused else none
  | .txSendRefuse _ _ => some .sendRefused
  | .txAck => none
  | .txNack => none
  | .txByteStart => none
  | .txByteCmd => none
  | .txByteLen => none
  | .txByteData => none
  | .txByteCsum => none
  | .txByteEnd => none
  | .resetAssert => none
  | .motorSetSpeed p => if p.length = 2 then none else some .wrongArity
  | .motorStop _ => none
  | .motorEstop _ => none
  | .imuReq _ => none
  | .ultrasonicReq _ => none
  | .allSensorsReq _ => none
  | .ledControl p => if p.length = 1 then none else some .wrongArity
  | .buzzerControl p => if p.length = 1 then none else some .wrongArity
  | .statusReq _ => none
  | .resetCommand _ => none
  | .unknown _ _ => some .unknownCommand
  | .ack => none
  | .nack => none
  | .imuData _ => none
  | .ultrasonicData _ => none
  | .allSensorsData p => if maxPayload < p.length then some .sendRefused else none
  | .systemStatus _ => none

/-- What is seen of `send(command, payload)` as a whole (R7, R100, R101). -/
def sendObs (c : Byte) (p : List Byte) : List Obs :=
  if p.length ≤ maxPayload then (wireFrame c p).map Obs.tx ++ [.sendResult true] else [.sendResult false]

/-- What is seen of one ACK, written out (R66, R102). -/
def ackObs : List Obs := [.tx 0xAA, .tx 0xA0, .tx 0x00, .tx 0xA0, .tx 0x55, .sendResult true]

/-- What is seen of one NACK with code `n`, written out (R66, R103). -/
def nackObs (n : Byte) : List Obs := [.tx 0xAA, .tx n, .tx 0x00, .tx n, .tx 0x55, .sendResult true]

/-- The state whose following steps still have these actions to do, and are then done (R24). -/
def leaves (s : State) (as : List Action) : State := s.withAgenda (s.agenda ++ as ++ [.done])

/-- The state after a dispatch that never returns (R126, R175). -/
def neverDone (s : State) : State := (s.withHung true).withAgenda []

/-- What is seen of a request as a whole. -/
def requestObs (P : Params) (r : Request) : List Obs :=
  sendObs (requestCode P r) (requestPayload P r)

/-- What is seen of a handler call with all its sends. -/
def callObs (P : Params) (h : Handler) (e : HandlerRun) : List Obs :=
  .call h :: e.sends.flatMap (requestObs P)

/-- What is seen of the all-sensors command (R122): the handlers in order, each with its sends, a settling gap between
calls and none after the last. The second argument is what the handlers will do, call by call. -/
def allSensorsObs (P : Params) : List Query → List HandlerRun → List Obs
  | [], _ => []
  | [q], es => callObs P (queryHandler q) (es.headD { sends := [], returns := true })
  | q :: qs, es =>
    callObs P (queryHandler q) (es.headD { sends := [], returns := true }) ++
      .wait .settleGap :: allSensorsObs P qs es.tail

/-- The operation writes a receiver register or the buffer: the ten receiver operations, reset, and CSUM.ACC on
`rx_acc` (R70, R92, R161). -/
def writesRx : Instr → Bool
  | .rxIdleStart => true
  | .rxIdleSkip _ => true
  | .rxCmd _ => true
  | .rxLenOver _ => true
  | .rxLenZero => true
  | .rxLenData _ => true
  | .rxDataMore _ => true
  | .rxDataLast _ => true
  | .rxCsumOk _ => true
  | .rxCsumBad _ => true
  | .csumFn _ _ _ => false
  | .csumAcc side _ _ => side == .rx
  | .csumCmp _ _ => false
  | .txSend _ _ => false
  | .txSendRefuse _ _ => false
  | .txAck => false
  | .txNack => false
  | .txByteStart => false
  | .txByteCmd => false
  | .txByteLen => false
  | .txByteData => false
  | .txByteCsum => false
  | .txByteEnd => false
  | .resetAssert => true
  | .motorSetSpeed _ => false
  | .motorStop _ => false
  | .motorEstop _ => false
  | .imuReq _ => false
  | .ultrasonicReq _ => false
  | .allSensorsReq _ => false
  | .ledControl _ => false
  | .buzzerControl _ => false
  | .statusReq _ => false
  | .resetCommand _ => false
  | .unknown _ _ => false
  | .ack => false
  | .nack => false
  | .imuData _ => false
  | .ultrasonicData _ => false
  | .allSensorsData _ => false
  | .systemStatus _ => false

/-- The receiver operation is the one that R64 selects when `rx_idx`, `rx_len` and the expected checksum are these; an
operation of another kind is not concerned. -/
def selectedBy (idx len acc : Byte) : Instr → Bool
  | .rxDataMore _ => dataMore idx len
  | .rxDataLast _ => !dataMore idx len
  | .rxCsumOk b => csumMatch b acc
  | .rxCsumBad b => !csumMatch b acc
  | _ => true

/-- The receiver's invariants of R83 (I1, I3, and the bounds of I2), its canonical buffer (I4), and what I3 rests on in
state Length. -/
abbrev RxInv (r : Rx) : Prop :=
  r.buf.wf = true ∧
  (r.state = .length → r.acc = r.cmd) ∧
  (r.state = .data →
    1 ≤ r.len.toNat ∧ r.len.toNat ≤ maxPayload ∧ r.idx.toNat < r.len.toNat ∧
    r.acc = checksum r.cmd r.len (readPayload r.buf r.idx.toNat)) ∧
  (r.state = .checksum →
    r.len.toNat ≤ maxPayload ∧ r.acc = checksum r.cmd r.len (readPayload r.buf r.len.toNat))

/-- The encoder's counterparts (R21, R110): the length is the payload's, the index is inside it, and `tx_acc` is the
checksum of what has been written. -/
abbrev TxInv (t : Tx) : Prop :=
  (t.state ≠ .idle → t.len.toNat = t.payload.length ∧ t.payload.length ≤ maxPayload) ∧
  (t.state = .start ∨ t.state = .cmd ∨ t.state = .len → t.idx = 0) ∧
  (t.state = .len → t.acc = t.cmd) ∧
  (t.state = .data →
    t.idx.toNat < t.len.toNat ∧ t.acc = checksum t.cmd t.len (t.payload.take t.idx.toNat)) ∧
  (t.state = .csum → t.acc = checksum t.cmd t.len t.payload)

/-- A frame as R70 and R93 describe the ones delivered: the length is the payload's and at most 64, and the checksum byte
is the computed one. -/
abbrev FrameValid (f : Frame) : Prop :=
  f.len.toNat = f.payload.length ∧ f.payload.length ≤ maxPayload ∧ f.csum = checksum f.cmd f.len f.payload

/-- The ports: a frame waits only while nothing is being written and no receiver step has work left, and a dispatch that
never returns leaves none. -/
abbrev PortInv (s : State) : Prop :=
  (s.frame ≠ none → s.agenda = [] ∧ s.hung = false ∧ s.tx.state = .idle) ∧ (s.hung = true → s.agenda = [])

/-- The invariant that every step keeps. -/
abbrev Inv (s : State) : Prop :=
  RxInv s.rx ∧ TxInv s.tx ∧ (∀ f ∈ s.frame, FrameValid f) ∧ (∀ f ∈ s.framesOut, FrameValid f) ∧ PortInv s

end Sys2Proof
end

