-- ==== Sys2Proof/Certificates/Slice0/Obligations.lean ====
section
/-! DEFINITION. The statements for the provers, from the numbered rules of spec/. -/

open Sys2Proof Sys2Proof.Machine

/-! ## Encoding -/

/-- R45, R88 (frame level), R55, R56: the encoder's bytes of every well-formed command or response frame decode to that
frame, with every operand at every value, and leave the END byte and what follows. -/
def Obligations.FrameDecodesFromItsEncoding : Prop :=
  ∀ (P : Params) (i : Instr) (d : Direction) (bytes rest : List Byte), P.wf → WellFormed P i = true →
    encode P i = some (.wire d bytes) → decodeFrame P d (bytes ++ rest) = .ok (i, endByte :: rest)

/-- R64: the key of every well-formed receiver operation decodes to that operation, where the registers that the selection
reads select it. -/
def Obligations.KeyDecodesFromItsEncoding : Prop :=
  ∀ (P : Params) (i : Instr) (idx len acc : Byte) (k : BitVec 11), WellFormed P i = true →
    selectedBy idx len acc i = true → encode P i = some (.key k) → decodeKey idx len acc k = i

/-- R64: every key selects a well-formed operation, and a key whose state code is one of the five is that operation's own
encoding. -/
def Obligations.EveryKeySelectsOneWellFormedOperation : Prop :=
  ∀ (P : Params) (idx len acc : Byte) (k : BitVec 11),
    WellFormed P (decodeKey idx len acc k) = true ∧ selectedBy idx len acc (decodeKey idx len acc k) = true ∧
    ((k.extractLsb' 8 3).toNat < 5 → encode P (decodeKey idx len acc k) = some (.key k))

/-- R10, D3: the state codes 5, 6 and 7 act exactly as Idle. -/
def Obligations.StrayStateCodesActAsIdle : Prop :=
  ∀ (idx len acc b : Byte) (c : BitVec 3), 5 ≤ c.toNat →
    decodeKey idx len acc (c ++ b) = decodeKey idx len acc ((0 : BitVec 3) ++ b)

/-- R45, R55, R56, R64: words written out from the tables of the spec. -/
def Obligations.SampleWordsDecode : Prop :=
  decodeKey 0 0 0 0b00010101010 = .rxIdleStart ∧
  decodeKey 0 0 0 0b00100000010 = .rxCmd 0x02 ∧
  decodeKey 0 0 0 0b01001000001 = .rxLenOver 0x41 ∧
  decodeKey 0 2 0 0b01100110010 = .rxDataMore 0x32 ∧
  decodeKey 0 0 0x03 0b10000000011 = .rxCsumOk 0x03 ∧
  decodeFrame Params.specDefault .toDevice [0xAA, 0x01, 0x02, 0x32, 0xCE, 0x03, 0x55] =
    .ok (.motorSetSpeed [0x32, 0xCE], [0x55]) ∧
  decodeFrame Params.specDefault .toDevice [0xAA, 0xFF, 0x00, 0xFF, 0x55] = .ok (.unknown 0xFF [], [0x55]) ∧
  decodeFrame Params.specDefault .toHost [0xAA, 0xA0, 0x00, 0xA0, 0x55] = .ok (.ack, [0x55])

/-- R116, R127: the dispatcher's selection is by the command byte alone, one command for each of the ten codes and UNKNOWN
for every other byte. -/
def Obligations.CommandByteSelectsCommand : Prop :=
  ∀ (P : Params) (c : Byte) (p : List Byte), P.wf →
    commandInstr P 0x01 p = .motorSetSpeed p ∧ commandInstr P 0x02 p = .motorStop p ∧
    commandInstr P P.cmdMotorEstop p = .motorEstop p ∧ commandInstr P P.cmdImuReq p = .imuReq p ∧
    commandInstr P P.cmdUltrasonicReq p = .ultrasonicReq p ∧ commandInstr P P.cmdAllSensorsReq p = .allSensorsReq p ∧
    commandInstr P P.cmdLed p = .ledControl p ∧ commandInstr P P.cmdBuzzer p = .buzzerControl p ∧
    commandInstr P P.cmdStatusReq p = .statusReq p ∧ commandInstr P P.cmdReset p = .resetCommand p ∧
    (c ∉ P.commandCodes → commandInstr P c p = .unknown c p)

/-! ## A step runs the selected operation -/

/-- R6, R18, R64: the operation that the next input, `tx_state`, the FRAME port or the agenda selects is the one that the
step runs, at the state with its input taken. When a
byte or a request is accepted, and the order of the ports, are the model's choices (log entries 2, 22, 27 and 29). -/
def Obligations.StepRunsSelectedOperation : Prop :=
  ∀ (s : State),
    (∀ b rest, s.inputs = .rx b :: rest → rxReady s = true →
      step s = exec (decodeKey s.rx.idx s.rx.len s.rx.acc (keyOf s.rx.state b)) (s.withInputs rest)) ∧
    (∀ r rest, s.inputs = .send r :: rest → sendReady s = true →
      step s = exec (requestInstr r) (s.withInputs rest)) ∧
    (∀ rest, s.inputs = .reset :: rest → step s = exec .resetAssert (s.withInputs rest)) ∧
    (∀ f, s.inputs = [] → s.frame = some f →
      step s = exec (commandInstr s.params f.cmd f.payload) (s.withFrame none)) ∧
    (∀ i, s.inputs = [] → s.frame = none → s.sinkReady = true → txInstr s.tx.state = some i → step s = exec i s) ∧
    (∀ r rest, s.inputs = [] → s.frame = none → s.tx.state = .idle → s.agenda = .send r :: rest →
      step s = exec (requestInstr r) (s.withAgenda rest))

/-- R24, R45, R116: the step that takes a frame from the FRAME port runs the operation that the frame's bytes decode to. -/
def Obligations.FrameAtPortRunsAsDecoded : Prop :=
  ∀ (s : State) (f : Frame) (i : Instr) (rest : List Byte), s.inputs = [] → s.frame = some f →
    f.payload.length ≤ maxPayload →
    decodeFrame s.params .toDevice (wireFrame f.cmd f.payload) = .ok (i, rest) →
    step s = exec i (s.withFrame none)

/-- R70, R64: under the receiver's invariant the byte selects the operation that R70 writes, with the pure checksum
function in state Checksum. -/
def Obligations.SelectionIsThatOfTheStepFunction : Prop :=
  ∀ (r : Rx) (b : Byte), RxInv r →
    receiveInstr r b =
      match r.state with
      | .idle => if b = 0xAA then .rxIdleStart else .rxIdleSkip b
      | .cmd => .rxCmd b
      | .length => if 64 < b.toNat then .rxLenOver b else if b = 0 then .rxLenZero else .rxLenData b
      | .data => if r.idx.toNat + 1 < r.len.toNat then .rxDataMore b else .rxDataLast b
      | .checksum =>
        if b = BitVec.ofNat 8 (r.cmd.toNat + r.len.toNat +
            ((List.range r.len.toNat).map fun a => (readCell r.buf a).toNat).sum)
        then .rxCsumOk b else .rxCsumBad b

/-- R70, R4: the step of an accepted byte is `rx_step`: the registers after it, and its event. When a byte
is accepted rests in part on log entry 27. -/
def Obligations.AcceptedByteAppliesStepFunction : Prop :=
  ∀ (s : State) (b : Byte) (rest : List Input), s.inputs = .rx b :: rest → rxReady s = true →
    ∃ t, step s = .next t ∧ t.rx = (rxStep s.rx b).1 ∧ t.inputs = rest ∧
      ((rxStep s.rx b).2 = .noEvent → t = (s.withInputs rest).withRx t.rx) ∧
      (∀ f, (rxStep s.rx b).2 = .frameOut f → s.trace ++ [.frameOut f] <+: t.trace) ∧
      ((rxStep s.rx b).2 = .nackOut → t.framesOut = s.framesOut ∧ t.handlerCalls = s.handlerCalls)

/-- A word of the opcode table that decodes is the operation that the next step runs when it is placed (the model's own
placement, log entries 15 and 16). -/
def Obligations.PlacedTableWordRunsNext : Prop :=
  ∀ (s : State) (nbits w : Nat) (i : Instr), s.params = Params.specDefault → decodeTableWord nbits w = some i →
    ∃ t, step (s.withFetchWord nbits w) = exec i t ∧ t.trace = s.trace ∧ t.handlers = s.handlers ∧
      t.params = s.params ∧ t.inputs = s.inputs

/-! ## Receiver operations -/

/-- R71, R72: in Idle, START opens a candidate frame and any other byte is discarded; nothing else changes. -/
def Obligations.IdleOpensFrameOrDiscards : Prop :=
  ∀ (s : State) (b : Byte),
    (s.rx.state = .idle → receiveInstr s.rx b = if b = 0xAA then .rxIdleStart else .rxIdleSkip b) ∧
    exec .rxIdleStart s = .next (s.withRx { s.rx with state := .cmd }) ∧
    exec (.rxIdleSkip b) s = .next (s.withRx { s.rx with state := .idle }) ∧
    (s.rx.state = .idle → exec (.rxIdleSkip b) s = .next s)

/-- R73: in Cmd, any byte is the command and loads the accumulator, whatever its value. -/
def Obligations.CommandByteIsStored : Prop :=
  ∀ (s : State) (b : Byte),
    (s.rx.state = .cmd → receiveInstr s.rx b = .rxCmd b) ∧
    exec (.rxCmd b) s = .next (s.withRx { s.rx with cmd := b, acc := b, state := .length })

/-- R74, R141: a length above 64 is stored, the receiver returns to Idle, and nothing is sent or delivered; the outcome is
FramingDrop, which no other operation raises. -/
def Obligations.OversizeLengthDropsSilently : Prop :=
  ∀ (s : State) (b : Byte) (i : Instr),
    (s.rx.state = .length → 64 < b.toNat → receiveInstr s.rx b = .rxLenOver b) ∧
    exec (.rxLenOver b) s = .next (s.withRx { s.rx with len := b, state := .idle }) ∧
    (raises i = some .framingDrop ↔ ∃ b', i = .rxLenOver b')

/-- R75: length 0 skips the payload; `rx_idx`, `rx_buf` and `rx_acc` keep their values. -/
def Obligations.ZeroLengthSkipsPayload : Prop :=
  ∀ (s : State),
    (s.rx.state = .length → receiveInstr s.rx 0 = .rxLenZero) ∧
    exec .rxLenZero s = .next (s.withRx { s.rx with len := 0, state := .checksum })

/-- R76: a length 1 to 64 is stored and added, and the index is reset; the buffer is not cleared. -/
def Obligations.LengthByteStartsPayload : Prop :=
  ∀ (s : State) (b : Byte),
    (s.rx.state = .length → 1 ≤ b.toNat → b.toNat ≤ 64 → receiveInstr s.rx b = .rxLenData b) ∧
    exec (.rxLenData b) s =
      .next (s.withRx
        { s.rx with len := b, idx := 0, acc := BitVec.ofNat 8 (s.rx.acc.toNat + b.toNat), state := .data })

/-- R77, R78: the byte is stored at `rx_idx`, every other cell reads as before, the index goes up by one, the byte is
added; nothing else changes. -/
def Obligations.DataByteIsStoredAtIndex : Prop :=
  ∀ (s : State) (b : Byte), s.rx.buf.wf = true → s.rx.idx.toNat < 64 →
    (s.rx.state = .data →
      receiveInstr s.rx b = if s.rx.idx.toNat + 1 < s.rx.len.toNat then .rxDataMore b else .rxDataLast b) ∧
    ∃ t u, exec (.rxDataMore b) s = .next t ∧ exec (.rxDataLast b) s = .next u ∧
      readCell t.rx.buf s.rx.idx.toNat = b ∧ (∀ a, a ≠ s.rx.idx.toNat → readCell t.rx.buf a = readCell s.rx.buf a) ∧
      t.rx.idx.toNat = s.rx.idx.toNat + 1 ∧ t.rx.acc = BitVec.ofNat 8 (s.rx.acc.toNat + b.toNat) ∧
      t = s.withRx { s.rx with buf := t.rx.buf, idx := t.rx.idx, acc := t.rx.acc, state := .data } ∧
      u = t.withRx { t.rx with state := .checksum }

/-- 92_eei_decisions.md D26 (a decision of the spec; log entry 6): with `rx_idx` above 63, which no run reaches, the write
is no write; the rest of the operation is as R77 and R78 write it. -/
def Obligations.WriteAboveSixtyThreeIsNoWrite : Prop :=
  ∀ (s : State) (b : Byte), 64 ≤ s.rx.idx.toNat →
    exec (.rxDataMore b) s = .next (s.withRx
      { s.rx with idx := s.rx.idx + 1, acc := BitVec.ofNat 8 (s.rx.acc.toNat + b.toNat), state := .data }) ∧
    exec (.rxDataLast b) s = .next (s.withRx
      { s.rx with idx := s.rx.idx + 1, acc := BitVec.ofNat 8 (s.rx.acc.toNat + b.toNat), state := .checksum })

/-- R79: the checksum byte is stored, the receiver is Idle, the frame is delivered with the content of the buffer, and its
dispatch runs to completion inside the step. -/
def Obligations.MatchingChecksumDeliversFrame : Prop :=
  ∀ (s : State) (b : Byte) (f : Frame) (u : State), atomic s = true →
    f = { cmd := s.rx.cmd, len := s.rx.len, payload := (List.range s.rx.len.toNat).map (readCell s.rx.buf), csum := b } →
    u = (s.withRx { s.rx with csum := b, state := .idle }).emit [.frameOut f] →
    (RxInv s.rx → s.rx.state = .checksum → b = checksum f.cmd f.len f.payload →
      receiveInstr s.rx b = .rxCsumOk b) ∧
    ∃ t, exec (.rxCsumOk b) s = .next t ∧ exec (commandInstr s.params f.cmd f.payload) u = .next t ∧
      t.rx = u.rx ∧ u.trace <+: t.trace

/-- R80, R142: the checksum byte is stored, the receiver is Idle, exactly one NACK frame is sent and nothing is delivered;
the outcome is ChecksumMismatch, which no other operation raises. -/
def Obligations.WrongChecksumSendsOneNack : Prop :=
  ∀ (s : State) (b : Byte) (i : Instr), atomic s = true →
    (RxInv s.rx → s.rx.state = .checksum →
      b ≠ checksum s.rx.cmd s.rx.len ((List.range s.rx.len.toNat).map (readCell s.rx.buf)) →
      receiveInstr s.rx b = .rxCsumBad b) ∧
    exec (.rxCsumBad b) s =
      .next ((s.withRx { s.rx with csum := b, state := .idle }).emit (nackObs s.params.nackCode)) ∧
    (raises i = some .checksumMismatch ↔ ∃ b', i = .rxCsumBad b')

/-- The frame of the receiver operations that end no frame with an event: only receiver registers change, `rx_csum` is
kept, and every cell but the one at `rx_idx` in a Data operation reads as before. -/
def Obligations.ReceiverOperationsFrame : Prop :=
  ∀ (s t : State) (i : Instr) (b : Byte),
    i ∈ [.rxIdleStart, .rxIdleSkip b, .rxCmd b, .rxLenOver b, .rxLenZero, .rxLenData b, .rxDataMore b, .rxDataLast b] →
    s.rx.buf.wf = true → exec i s = .next t →
    t = s.withRx t.rx ∧ t.rx.csum = s.rx.csum ∧
    (∀ a, (i = .rxDataMore b ∨ i = .rxDataLast b → a ≠ s.rx.idx.toNat) →
      readCell t.rx.buf a = readCell s.rx.buf a)

/-- R108, R161: the checksum, encoder, command and response operations (but CSUM.ACC on `rx_acc`) read and write no
receiver register and no cell of the buffer; no parameter, port input or sink state changes, and what has been seen stays
seen. -/
def Obligations.OtherOperationsFrame : Prop :=
  ∀ (s t : State) (i : Instr), writesRx i = false → exec i s = .next t →
    t.rx = s.rx ∧ (∀ a, readCell t.rx.buf a = readCell s.rx.buf a) ∧ t.params = s.params ∧ t.frame = s.frame ∧
    t.inputs = s.inputs ∧ t.sinkReady = s.sinkReady ∧ s.trace <+: t.trace

/-! ## The receiver as a whole -/

/-- R88: receiving `encode(c, p)` from Idle gives exactly the one frame event, no NACK, and Idle. -/
def Obligations.ReceptionOfEncodedFrame : Prop :=
  ∀ (r : Rx) (c : Byte) (p : List Byte), r.buf.wf = true → r.state = .idle → p.length ≤ 64 →
    (rxFeed r (wireFrame c p)).2 =
      [.frameOut
        { cmd := c, len := BitVec.ofNat 8 p.length, payload := p
          csum := checksum c (BitVec.ofNat 8 p.length) p }] ∧
    (rxFeed r (wireFrame c p)).1.state = .idle

/-- R84: after START, Idle again after exactly 2 further bytes if the length byte is above 64, else after exactly `L + 3`. -/
def Obligations.ReturnToIdleTakesDeclaredLength : Prop :=
  ∀ (r : Rx) (c l : Byte) (bs : List Byte), r.state = .cmd →
    (64 < l.toNat → (rxFeed r [c]).1.state ≠ .idle ∧ (rxFeed r [c, l]).1.state = .idle) ∧
    (l.toNat ≤ 64 → bs.length = l.toNat + 1 →
      (rxFeed r (c :: l :: bs)).1.state = .idle ∧
      ∀ n, n < l.toNat + 3 → (rxFeed r ((c :: l :: bs).take n)).1.state ≠ .idle)

/-- R84: no input keeps the receiver out of Idle for more than 67 consecutive bytes. -/
def Obligations.IdleWithinSixtySevenBytes : Prop :=
  ∀ (r : Rx) (bs : List Byte), RxInv r → bs.length = 67 → ∃ n, n ≤ 67 ∧ (rxFeed r (bs.take n)).1.state = .idle

/-- The bound that 90_conflicts.md C2 corrects: 66 bytes are not always enough. -/
def Obligations.IdleWithinSixtySixBytes : Prop :=
  ∀ (r : Rx) (bs : List Byte), RxInv r → bs.length = 66 → ∃ n, n ≤ 66 ∧ (rxFeed r (bs.take n)).1.state = .idle

/-- R86: from Idle, `n` bytes produce at most `n / 4` events. -/
def Obligations.AtMostOneEventPerFourBytes : Prop :=
  ∀ (r : Rx) (bs : List Byte), r.state = .idle → (rxFeed r bs).2.length ≤ bs.length / 4

/-- R17: the events of the bytes received since Idle depend on those bytes alone, on no other register and no cell. -/
def Obligations.EventsDependOnBytesSinceIdle : Prop :=
  ∀ (r r' : Rx) (bs : List Byte), r.buf.wf = true → r'.buf.wf = true → r.state = .idle → r'.state = .idle →
    (rxFeed r bs).2 = (rxFeed r' bs).2

/-- R82: END is never checked. In Idle the next byte, whatever it is, opens a frame if it is START and is discarded if it
is not; so a frame with a wrong or missing END byte is accepted exactly like a correct one. -/
def Obligations.EndByteIsNotInspected : Prop :=
  ∀ (r r' : Rx) (c e : Byte) (p : List Byte), r.buf.wf = true → r.state = .idle → r'.state = .idle → p.length ≤ 64 →
    rxStep r' e = ({ r' with state := if e = 0xAA then .cmd else .idle }, .noEvent) ∧
    (rxFeed r ((wireFrame c p).dropLast ++ [e])).2 = (rxFeed r (wireFrame c p)).2 ∧
    (rxFeed r (wireFrame c p).dropLast).2 = (rxFeed r (wireFrame c p)).2 ∧
    (rxFeed r (wireFrame c p).dropLast).1.state = .idle

/-! ## Invariants and whole-machine rules -/

/-- R83, R92, R93 and their counterparts for the encoder and the ports: every step keeps the invariant. -/
def Obligations.StepKeepsInvariant : Prop :=
  ∀ (s t : State), Inv s → step s = .next t → Inv t

/-- R83: the invariant holds after reset. -/
def Obligations.ResetMeetsInvariant : Prop :=
  Inv State.reset

/-- R70, R83 (D26): every operation and every step answers a next state. -/
def Obligations.EveryOperationAnswers : Prop :=
  (∀ (i : Instr) (s : State), ∃ t, exec i s = .next t) ∧ ∀ (s : State), ∃ t, step s = .next t

/-- R70, R161: the receiver's registers change only by `rx_step` on an accepted byte, or by reset. -/
def Obligations.ReceiverChangesOnlyByByteOrReset : Prop :=
  ∀ (s t : State), step s = .next t →
    t.rx = s.rx ∨
    (∃ b rest, s.inputs = .rx b :: rest ∧ rxReady s = true ∧ t.rx = (rxStep s.rx b).1) ∨
    (∃ rest, s.inputs = .reset :: rest)

/-- R20, R33, R37: no step changes the constants of the instance, and what has been sent, delivered or answered is never
withdrawn or reordered. -/
def Obligations.StepKeepsParametersAndOutputs : Prop :=
  ∀ (s t : State), step s = .next t → t.params = s.params ∧ s.trace <+: t.trace

/-- R164, R166: while a dispatch or a NACK is in progress, or a frame is being written, no byte is accepted: without a reset
the receiver's registers stay. While in addition the sink takes no byte, nothing at all changes but what the environment
offers, until the sink takes bytes again or a reset comes (92_eei_decisions.md D12). That a frame being written for an
outside request holds the receiver while the sink takes bytes is the model's choice (log entry 27). -/
def Obligations.StalledReceiverTakesNoByte : Prop :=
  ∀ (s t : State), (∀ rest, s.inputs ≠ .reset :: rest) → step s = .next t →
    (s.frame ≠ none ∨ s.agenda ≠ [] ∨ s.hung = true ∨ s.tx.state ≠ .idle → t.rx = s.rx) ∧
    (s.frame = none → s.tx.state ≠ .idle → s.sinkReady = false → (∀ ready rest, s.inputs ≠ .sink ready :: rest) →
      t = s.withInputs t.inputs)

/-- R126, R163: after a dispatch that never returns the block accepts no byte until a reset, and a reset ends it (that the
reboot is the RESET port is the model's reading, log entry 11). -/
def Obligations.HungDispatchLastsUntilReset : Prop :=
  ∀ (s t : State), s.hung = true → step s = .next t →
    ((∀ rest, s.inputs ≠ .reset :: rest) → t.hung = true ∧ t.rx = s.rx) ∧
    ((∃ rest, s.inputs = .reset :: rest) → t.hung = false ∧ t.rx.state = .idle)

/-- R18, R106, R157: with nothing offered and nothing that can go on, a step changes nothing; in particular a sink that
does not take a byte holds the encoder where it is. -/
def Obligations.NothingOfferedChangesNothing : Prop :=
  ∀ (s : State), s.inputs = [] → s.frame = none →
    (s.tx.state = .idle ∧ s.agenda = [] ∨ s.tx.state ≠ .idle ∧ s.sinkReady = false) → step s = .next s

/-- R160, R161, R162: the reset input leaves the receiver Idle and the encoder TxIdle, no event pending, no output; what
has been sent stays sent. That a dispatch in progress is abandoned and the environment's own state stays is the model's
choice (log entry 12). -/
def Obligations.ResetInputForgetsFrames : Prop :=
  ∀ (s : State), ∃ t, exec .resetAssert s = .next t ∧ t.rx.state = .idle ∧ t.tx.state = .idle ∧ t.frame = none ∧
    t.agenda = [] ∧ t.hung = false ∧ t.trace = s.trace ∧ t.params = s.params ∧ t.inputs = s.inputs ∧
    t.handlers = s.handlers ∧ t.sinkReady = s.sinkReady ∧ t.fnResult = s.fnResult

/-- R160: the state after reset. -/
def Obligations.StateAfterReset : Prop :=
  State.reset.rx.state = .idle ∧ State.reset.tx.state = .idle ∧ State.reset.txStream = [] ∧
  State.reset.framesOut = [] ∧ State.reset.frame = none ∧ State.reset.agenda = []

/-- R140 to R145: the five outcomes, each reported by one NACK or not at all; no handler is called and no frame is
delivered (at the transaction level, log entry 1). -/
def Obligations.ErrorOutcomesSendOneNackOrNothing : Prop :=
  ∀ (i : Instr) (s : State) (o : ErrorOutcome), raises i = some o → atomic s = true →
    ∃ t, exec i s = .next t ∧ t.handlerCalls = s.handlerCalls ∧ t.framesOut = s.framesOut ∧
      t.txStream = s.txStream ++
        (match o with
          | .framingDrop => []
          | .sendRefused => []
          | .checksumMismatch => [0xAA, s.params.nackCode, 0x00, s.params.nackCode, 0x55]
          | .unknownCommand => [0xAA, s.params.nackCode, 0x00, s.params.nackCode, 0x55]
          | .wrongArity => [0xAA, s.params.nackCode, 0x00, s.params.nackCode, 0x55])

/-! ## Checksum operations -/

/-- The checksum is the sum of command, length and payload modulo 256, and the function changes no register of the block
(41_checksum.md section 1). That a stand-alone CSUM.FN hands its result to `fnResult` is the model's choice (log entry 9). -/
def Obligations.ChecksumFunctionIsSumModulo256 : Prop :=
  ∀ (s : State) (c l : Byte) (p : List Byte),
    exec (.csumFn c l p) s =
      .next (s.withFnResult (.byte (BitVec.ofNat 8 ((c.toNat + l.toNat + (p.map (·.toNat)).sum) % 256))))

/-- R92: the accumulator is loaded, or the byte is added modulo 256, and nothing else changes. -/
def Obligations.AccumulatorLoadsOrAdds : Prop :=
  ∀ (s : State) (b : Byte),
    exec (.csumAcc .rx .load b) s = .next (s.withRx { s.rx with acc := b }) ∧
    exec (.csumAcc .rx .add b) s =
      .next (s.withRx { s.rx with acc := BitVec.ofNat 8 (s.rx.acc.toNat + b.toNat) }) ∧
    exec (.csumAcc .tx .load b) s = .next (s.withTx { s.tx with acc := b }) ∧
    exec (.csumAcc .tx .add b) s = .next (s.withTx { s.tx with acc := BitVec.ofNat 8 (s.tx.acc.toNat + b.toNat) })

/-- R93: the validator's compare is equality of all 8 bits; no register changes. -/
def Obligations.ValidatorComparesAllBits : Prop :=
  ∀ (s : State) (b e : Byte), ∃ v, exec (.csumCmp b e) s = .next (s.withFnResult (.bit v)) ∧
    (v = true ↔ ∀ k < 8, b.getLsbD k = e.getLsbD k)

/-- R95: the checksum can be computed incrementally; it ignores the order of the payload and an exchange of the command
with the length or with a payload byte; it detects a corruption of any single summed byte, and misses two changes that
cancel; zero bytes count only through the LENGTH byte. -/
def Obligations.ChecksumPropertiesHold : Prop :=
  ∀ (c c' l l' x y d : Byte) (p q r : List Byte) (n : Nat),
    checksum c l (p ++ [x]) = BitVec.ofNat 8 ((checksum c l p).toNat + x.toNat) ∧
    (p.Perm q → checksum c l p = checksum c l q) ∧
    checksum c l p = checksum l c p ∧ checksum c l (p ++ x :: q) = checksum x l (p ++ c :: q) ∧
    (checksum c l p = checksum c' l p → c = c') ∧ (checksum c l p = checksum c l' p → l = l') ∧
    (checksum c l (p ++ x :: q) = checksum c l (p ++ y :: q) → x = y) ∧
    checksum c l (p ++ (x + d) :: (q ++ (y - d) :: r)) = checksum c l (p ++ x :: (q ++ y :: r)) ∧
    checksum c l (p ++ List.replicate n 0) = checksum c l p

/-! ## Encoder operations -/

/-- R100: a request of at most 64 bytes: START, command, length, payload, checksum, END in this order, and success. -/
def Obligations.SendWritesWholeFrame : Prop :=
  ∀ (s : State) (c : Byte) (p : List Byte), p.length ≤ 64 → atomic s = true →
    requestInstr (.send c p) = .txSend c p ∧
    exec (.txSend c p) s =
      .next (s.emit
        (([0xAA, c, BitVec.ofNat 8 p.length] ++ p ++
            [BitVec.ofNat 8 (c.toNat + p.length + (p.map (·.toNat)).sum), 0x55]).map Obs.tx ++
          [.sendResult true]))

/-- R101: above 64 bytes the request is refused: failure, nothing written, nothing else changes. -/
def Obligations.OversizeSendIsRefused : Prop :=
  ∀ (s : State) (c : Byte) (p : List Byte),
    exec (.txSendRefuse c p) s = .next (s.emit [.sendResult false]) ∧
    (64 < p.length → requestInstr (.send c p) = .txSendRefuse c p ∧
      exec (.txSend c p) s = .next (s.emit [.sendResult false]))

/-- R110 (acceptance), R105: where a send is not one step, an idle encoder accepts the request and a busy one holds it (the
model's choice of realisation, and of where a request is held: log entries 1 and 22). -/
def Obligations.SerialEncoderAcceptsOrHolds : Prop :=
  ∀ (s : State) (c : Byte) (p : List Byte), p.length ≤ 64 → atomic s = false →
    (s.tx.state = .idle → exec (.txSend c p) s =
      .next (s.withTx
        { s.tx with state := .start, cmd := c, len := BitVec.ofNat 8 p.length, idx := 0, payload := p })) ∧
    (s.tx.state ≠ .idle → exec (.txSend c p) s = .next (s.withAgenda (s.agenda ++ [.send (.send c p)])))

/-- R66, R102, R103: in every state ACK is `send(0xA0, [])` and NACK is `send(NACK_CODE, [])`, as operations and as
response frames; where a send is one step they write `AA A0 00 A0 55` and `AA n 00 n 55`. -/
def Obligations.AckAndNackAreZeroPayloadFrames : Prop :=
  ∀ (s : State) (n : Byte), n = s.params.nackCode →
    exec .txAck s = exec (.txSend 0xA0 []) s ∧ exec .ack s = exec (.txSend 0xA0 []) s ∧
    exec .txNack s = exec (.txSend n []) s ∧ exec .nack s = exec (.txSend n []) s ∧
    (atomic s = true →
      exec .txAck s = .next (s.emit ackObs) ∧ exec .ack s = .next (s.emit ackObs) ∧
      exec .txNack s = .next (s.emit (nackObs n)) ∧ exec .nack s = .next (s.emit (nackObs n)))

/-- R110: the six byte steps. -/
def Obligations.ByteSerialSteps : Prop :=
  ∀ (s : State),
    exec .txByteStart s = .next ((s.emit [.tx 0xAA]).withTx { s.tx with state := .cmd }) ∧
    exec .txByteCmd s = .next ((s.emit [.tx s.tx.cmd]).withTx { s.tx with acc := s.tx.cmd, state := .len }) ∧
    exec .txByteLen s = .next ((s.emit [.tx s.tx.len]).withTx
      { s.tx with acc := s.tx.acc + s.tx.len, state := if s.tx.len = 0 then .csum else .data }) ∧
    (∀ b, s.tx.payload[s.tx.idx.toNat]? = some b →
      exec .txByteData s = .next ((s.emit [.tx b]).withTx
        { s.tx with
          acc := s.tx.acc + b, idx := s.tx.idx + 1
          state := if s.tx.idx.toNat + 1 = s.tx.len.toNat then .csum else .data })) ∧
    exec .txByteCsum s = .next ((s.emit [.tx s.tx.acc]).withTx { s.tx with state := .fin }) ∧
    exec .txByteEnd s = .next ((s.emit [.tx 0x55, .sendResult true]).withTx { s.tx with state := .idle })

/-- R110, R105: at the port level (log entry 1) an accepted request is written in `L + 5` steps as exactly `encode(command, payload)`,
contiguous, with success after END, the receiver untouched. -/
def Obligations.ByteSerialEncoderWritesTheFrame : Prop :=
  ∀ (s t : State) (c : Byte) (p : List Byte), p.length ≤ 64 → atomic s = false → s.sinkReady = true →
    s.tx.state = .idle → s.inputs = [] → s.frame = none → exec (.txSend c p) s = .next t →
    ∃ u, core.run (p.length + 5) t = .next u ∧
      u.trace = s.trace ++ (wireFrame c p).map Obs.tx ++ [.sendResult true] ∧ u.tx.state = .idle ∧ u.rx = s.rx ∧
      u.agenda = s.agenda

/-- R58, R59, R60, R62, R67: in every state a response frame is the send of its code with the record's fields in order,
four bytes each in the instance's byte order; where a send is one step its bytes are written at once. The order of x, y, z
inside a group is general knowledge (93_implementation_defined.md G2, log entry 21). -/
def Obligations.ResponseFramesCarryTheirRecords : Prop :=
  ∀ (s : State) (r : ImuRecord) (u : UltrasonicRecord) (v : StatusRecord) (p q1 q2 q3 : List Byte)
    (w4 : Word32 → List Byte),
    (∀ w, w4 w =
      if s.params.byteOrder = .little then
        [w.extractLsb' 0 8, w.extractLsb' 8 8, w.extractLsb' 16 8, w.extractLsb' 24 8]
      else [w.extractLsb' 24 8, w.extractLsb' 16 8, w.extractLsb' 8 8, w.extractLsb' 0 8]) →
    q1 = [r.accelX, r.accelY, r.accelZ, r.gyroX, r.gyroY, r.gyroZ, r.magX, r.magY, r.magZ, r.roll, r.pitch,
      r.yaw].flatMap w4 →
    q2 = [u.front, u.rear, u.left, u.right].flatMap w4 →
    q3 = w4 v.uptime ++ w4 v.battery ++ [v.cpuLoad, v.errorCount] →
    exec (.imuData r) s = exec (.txSend s.params.rspImuData q1) s ∧
    exec (.ultrasonicData u) s = exec (.txSend s.params.rspUltrasonicData q2) s ∧
    exec (.systemStatus v) s = exec (.txSend s.params.rspSystemStatus q3) s ∧
    exec (.allSensorsData p) s = exec (.txSend s.params.rspAllSensorsData p) s ∧
    (atomic s = true → p.length ≤ 64 →
      exec (.imuData r) s =
        .next (s.emit ((wireFrame s.params.rspImuData q1).map Obs.tx ++ [.sendResult true])) ∧
      exec (.ultrasonicData u) s =
        .next (s.emit ((wireFrame s.params.rspUltrasonicData q2).map Obs.tx ++ [.sendResult true])) ∧
      exec (.systemStatus v) s =
        .next (s.emit ((wireFrame s.params.rspSystemStatus q3).map Obs.tx ++ [.sendResult true])) ∧
      exec (.allSensorsData p) s =
        .next (s.emit ((wireFrame s.params.rspAllSensorsData p).map Obs.tx ++ [.sendResult true])))

/-! ## Command frames -/

/-- R118, R119: the handler, then one ACK, whatever the payload. -/
def Obligations.StopCommandsCallThenAck : Prop :=
  ∀ (s : State) (p : List Byte) (h : Handler) (i : Instr),
    (h = .stop ∧ i = .motorStop p ∨ h = .emergencyStop ∧ i = .motorEstop p) → atomic s = true →
    (nextRun s).returns = true →
    exec i s = .next ((s.withHandlers s.handlers.tail).emit
      (callObs s.params h (nextRun s) ++ ackObs))

/-- R117, R57: two payload bytes are the left and right speed, signed, the handler comes first and then one ACK; any other
length gives one NACK and no handler call. -/
def Obligations.SetSpeedNeedsTwoSignedBytes : Prop :=
  ∀ (s : State) (l r : Byte) (p : List Byte), atomic s = true →
    ((nextRun s).returns = true → exec (.motorSetSpeed [l, r]) s =
      .next ((s.withHandlers s.handlers.tail).emit
        (callObs s.params (.setMotorSpeed l.toInt r.toInt) (nextRun s) ++ ackObs))) ∧
    (p.length ≠ 2 → exec (.motorSetSpeed p) s =
      .next (s.emit (nackObs s.params.nackCode)))

/-- R123, R124, R61: one payload byte is passed unchanged, the handler comes first and then one ACK; any other length
gives one NACK and no handler call. -/
def Obligations.SingleStateCommandsNeedOneByte : Prop :=
  ∀ (s : State) (v : Byte) (p : List Byte), atomic s = true →
    ((nextRun s).returns = true →
      exec (.ledControl [v]) s = .next ((s.withHandlers s.handlers.tail).emit
        (callObs s.params (.setIndicatorState v) (nextRun s) ++ ackObs)) ∧
      exec (.buzzerControl [v]) s = .next ((s.withHandlers s.handlers.tail).emit
        (callObs s.params (.setAudibleAlertState v) (nextRun s) ++ ackObs))) ∧
    (p.length ≠ 1 →
      exec (.ledControl p) s =
        .next (s.emit (nackObs s.params.nackCode)) ∧
      exec (.buzzerControl p) s =
        .next (s.emit (nackObs s.params.nackCode)))

/-- R120, R121, R125: a query calls its handler once, whatever the payload, and the dispatcher sends nothing itself. -/
def Obligations.QueriesOnlyCallTheirHandler : Prop :=
  ∀ (s : State) (p : List Byte) (h : Handler) (i : Instr),
    (h = .requestImuSample ∧ i = .imuReq p ∨ h = .requestUltrasonicSample ∧ i = .ultrasonicReq p ∨
      h = .requestSystemStatus ∧ i = .statusReq p) →
    atomic s = true → (nextRun s).returns = true →
    exec i s = .next ((s.withHandlers s.handlers.tail).emit (callObs s.params h (nextRun s)))

/-- R122: the all-sensors command calls the handlers of `ALL_SENSORS_SEQUENCE` in order with a gap between calls, and the
dispatcher sends nothing itself; a handler that never returns ends the sequence (R129, R175), also where that
handler has sent its response, which is the model's choice (log entry 28). -/
def Obligations.AllSensorsCallsInSequence : Prop :=
  ∀ (s : State) (p : List Byte) (pre post : List HandlerRun) (e : HandlerRun), atomic s = true →
    ((∀ e' ∈ s.handlers.take s.params.allSensors.length, e'.returns = true) →
      exec (.allSensorsReq p) s =
        .next ((s.withHandlers (s.handlers.drop s.params.allSensors.length)).emit
          (allSensorsObs s.params s.params.allSensors s.handlers))) ∧
    (s.handlers = pre ++ e :: post → (∀ e' ∈ pre, e'.returns = true) → e.returns = false →
      pre.length < s.params.allSensors.length →
      exec (.allSensorsReq p) s =
        .next (neverDone ((s.withHandlers post).emit
          (allSensorsObs s.params (s.params.allSensors.take (pre.length + 1)) s.handlers))))

/-- R126: ACK, the yield, then the reset handler, which never returns, whatever the payload. -/
def Obligations.ResetCommandAcksThenNeverReturns : Prop :=
  ∀ (s : State) (p : List Byte), atomic s = true →
    exec (.resetCommand p) s =
      .next (neverDone ((s.withHandlers s.handlers.tail).emit
        (ackObs ++ .wait .flush :: callObs s.params .reset (nextRun s))))

/-- R127, R143: a command byte that is none of the ten codes gives one NACK and nothing else; the outcome is
UnknownCommand, which no other operation raises. -/
def Obligations.UnknownCommandSendsOneNack : Prop :=
  ∀ (s : State) (c : Byte) (p : List Byte) (i : Instr), atomic s = true →
    (c ∉ s.params.commandCodes → commandInstr s.params c p = .unknown c p) ∧
    exec (.unknown c p) s = .next (s.emit (nackObs s.params.nackCode)) ∧
    (raises i = some .unknownCommand ↔ ∃ c' p', i = .unknown c' p')

/-- R129, R175: a handler that never returns ends the dispatch: no ACK is sent and the block stays stalled. That this also
holds of one that has sent its own response is the model's choice (log entry 28). -/
def Obligations.HandlerThatNeverReturnsHangsDispatch : Prop :=
  ∀ (s : State) (l r v : Byte) (p : List Byte) (h : Handler) (i : Instr),
    (h = .stop ∧ i = .motorStop p ∨ h = .emergencyStop ∧ i = .motorEstop p ∨
      h = .requestImuSample ∧ i = .imuReq p ∨ h = .requestUltrasonicSample ∧ i = .ultrasonicReq p ∨
      h = .requestSystemStatus ∧ i = .statusReq p ∨
      h = .setMotorSpeed l.toInt r.toInt ∧ i = .motorSetSpeed [l, r] ∨
      h = .setIndicatorState v ∧ i = .ledControl [v] ∨ h = .setAudibleAlertState v ∧ i = .buzzerControl [v]) →
    atomic s = true → (nextRun s).returns = false →
    exec i s = .next (neverDone ((s.withHandlers s.handlers.tail).emit (callObs s.params h (nextRun s))))

/-- R24, R38: where a dispatch is not one step, a validated frame is held at the FRAME port, and a NACK and each command
leave what is still to do, in order (the model's choice of realisation and of the agenda: log entries 1 and 22). -/
def Obligations.DispatchWaitsAtPortLevel : Prop :=
  ∀ (s : State) (c l r v : Byte) (p : List Byte) (f : Frame) (u : State), atomic s = false →
    f = { cmd := s.rx.cmd, len := s.rx.len, payload := (List.range s.rx.len.toNat).map (readCell s.rx.buf), csum := v } →
    u = s.withRx { s.rx with csum := v, state := .idle } →
    exec (.rxCsumOk v) s = .next ((u.emit [.frameOut f]).withFrame (some f)) ∧
    exec (.rxCsumBad v) s = .next (leaves u [.send .nack]) ∧
    exec (.motorSetSpeed [l, r]) s = .next (leaves s [.call (.setMotorSpeed l.toInt r.toInt), .send .ack]) ∧
    exec (.motorStop p) s = .next (leaves s [.call .stop, .send .ack]) ∧
    exec (.motorEstop p) s = .next (leaves s [.call .emergencyStop, .send .ack]) ∧
    exec (.imuReq p) s = .next (leaves s [.call .requestImuSample]) ∧
    exec (.ultrasonicReq p) s = .next (leaves s [.call .requestUltrasonicSample]) ∧
    exec (.statusReq p) s = .next (leaves s [.call .requestSystemStatus]) ∧
    exec (.allSensorsReq p) s = .next (leaves s
      ((s.params.allSensors.map fun q => Action.call (queryHandler q)).intersperse (.wait .settleGap))) ∧
    exec (.ledControl [v]) s = .next (leaves s [.call (.setIndicatorState v), .send .ack]) ∧
    exec (.buzzerControl [v]) s = .next (leaves s [.call (.setAudibleAlertState v), .send .ack]) ∧
    exec (.resetCommand p) s = .next (leaves s [.send .ack, .wait .flush, .call .reset]) ∧
    exec (.unknown c p) s = .next (leaves s [.send .nack]) ∧
    (p.length ≠ 2 → exec (.motorSetSpeed p) s = .next (leaves s [.send .nack])) ∧
    (p.length ≠ 1 → exec (.ledControl p) s = .next (leaves s [.send .nack]) ∧
      exec (.buzzerControl p) s = .next (leaves s [.send .nack]))
end

