-- ==== Sys2Proof/Laws/Decode.lean ====
section
/-! SUPPORT. The two fields of a receiver operation's key, and the selection that a byte makes. -/

namespace Sys2Proof.Machine

@[simp] theorem keyOf_code (st : RxState) (b : Byte) : (keyOf st b).extractLsb' 8 3 = codeOfState st := by
  unfold keyOf
  apply BitVec.eq_of_getLsbD_eq
  intro i hi
  rw [BitVec.getLsbD_extractLsb', BitVec.getLsbD_append]
  simp [hi]

@[simp] theorem keyOf_byte (st : RxState) (b : Byte) : (keyOf st b).extractLsb' 0 8 = b := by
  unfold keyOf
  apply BitVec.eq_of_getLsbD_eq
  intro i hi
  rw [BitVec.getLsbD_extractLsb', BitVec.getLsbD_append]
  simp [hi]

@[simp] theorem stateOfCode_codeOfState (st : RxState) : stateOfCode (codeOfState st) = st := by
  cases st <;> rfl

/-- The five codes of R10 are read back. -/
theorem codeOfState_stateOfCode (c : BitVec 3) (h : c.toNat < 5) : codeOfState (stateOfCode c) = c := by
  revert c
  decide

/-- A key is its two fields. -/
theorem keyOf_fields (k : BitVec 11) (st : RxState) (h : codeOfState st = k.extractLsb' 8 3) :
    keyOf st (k.extractLsb' 0 8) = k := by
  unfold keyOf
  rw [h]
  apply BitVec.eq_of_getLsbD_eq
  intro i hi
  rw [BitVec.getLsbD_append, BitVec.getLsbD_extractLsb', BitVec.getLsbD_extractLsb']
  split
  · simp [*]
  · have : i - 8 < 3 := by omega
    simp only [this, decide_true, Bool.true_and]
    congr 1
    omega

/-- The operation a byte selects, read off the registers. -/
theorem receiveInstr_eq (r : Rx) (b : Byte) :
    receiveInstr r b = selectReceive r.idx r.len r.acc r.state b := by
  simp [receiveInstr, decodeKey]

end Sys2Proof.Machine
end

