-- ==== Sys2Proof/Laws/Memory.lean ====
section
/-! SUPPORT. The payload buffer: a read after a write, and the canonical form that every write keeps. -/

namespace Sys2Proof.Machine

/-- The canonical form only gets easier from a lower index. -/
theorem wfFrom_mono {m : Memory} {lo lo' : Nat} (h : Memory.wfFrom lo m = true) (hl : lo' ≤ lo) :
    Memory.wfFrom lo' m = true := by
  cases m with
  | nil => rfl
  | cons c m =>
    obtain ⟨a, v⟩ := c
    simp only [Memory.wfFrom, Bool.and_eq_true, decide_eq_true_eq] at h ⊢
    exact ⟨⟨⟨hl.trans h.1.1.1, h.1.1.2⟩, h.1.2⟩, h.2⟩

/-- Below the first index nothing is listed. -/
theorem readCell_of_lt {m : Memory} {lo x : Nat} (h : Memory.wfFrom lo m = true) (hx : x < lo) :
    readCell m x = unlistedByte := by
  induction m generalizing lo with
  | nil => rfl
  | cons c m ih =>
    obtain ⟨a, v⟩ := c
    simp only [Memory.wfFrom, Bool.and_eq_true, decide_eq_true_eq] at h
    have hne : a ≠ x := by omega
    simp only [readCell, hne, if_false]
    exact ih h.2 (by omega)

/-- A byte put in front keeps the canonical form. -/
theorem wfFrom_consCell {m : Memory} {lo x : Nat} {v : Byte} (hlo : lo ≤ x) (hx : x < maxPayload)
    (h : Memory.wfFrom (x + 1) m = true) : Memory.wfFrom lo (consCell x v m) = true := by
  unfold consCell
  split
  · exact wfFrom_mono h (by omega)
  · rename_i hv
    simp [Memory.wfFrom, hlo, hx, h, hv]

/-- What reads where a byte was put in front. -/
theorem readCell_consCell {m : Memory} {x y : Nat} {v : Byte} (h : Memory.wfFrom (x + 1) m = true) :
    readCell (consCell x v m) y = if x = y then v else readCell m y := by
  unfold consCell
  split
  · rename_i hv
    split
    · rename_i hxy
      subst hxy
      rw [readCell_of_lt h (by omega), hv]
    · rfl
  · rfl

/-- A store keeps the canonical form. -/
theorem wfFrom_storeCell {m : Memory} {lo x : Nat} {v : Byte} (h : Memory.wfFrom lo m = true) (hlo : lo ≤ x)
    (hx : x < maxPayload) : Memory.wfFrom lo (storeCell m x v) = true := by
  induction m generalizing lo with
  | nil => exact wfFrom_consCell hlo hx rfl
  | cons c m ih =>
    obtain ⟨a, w⟩ := c
    simp only [Memory.wfFrom, Bool.and_eq_true, decide_eq_true_eq] at h
    simp only [storeCell]
    split
    · refine wfFrom_consCell hlo hx ?_
      simp only [Memory.wfFrom, Bool.and_eq_true, decide_eq_true_eq]
      exact ⟨⟨⟨by omega, h.1.1.2⟩, h.1.2⟩, h.2⟩
    · split
      · rename_i hxa
        exact wfFrom_consCell hlo hx (hxa ▸ h.2)
      · simp only [Memory.wfFrom, Bool.and_eq_true, decide_eq_true_eq]
        exact ⟨h.1, ih h.2 (by omega)⟩

/-- A read after a store. -/
theorem readCell_storeCell {m : Memory} {lo x y : Nat} {v : Byte} (h : Memory.wfFrom lo m = true) :
    readCell (storeCell m x v) y = if x = y then v else readCell m y := by
  induction m generalizing lo with
  | nil => exact readCell_consCell rfl
  | cons c m ih =>
    obtain ⟨a, w⟩ := c
    have h' := h
    simp only [Memory.wfFrom, Bool.and_eq_true, decide_eq_true_eq] at h'
    simp only [storeCell]
    split
    · refine readCell_consCell ?_
      simp only [Memory.wfFrom, Bool.and_eq_true, decide_eq_true_eq]
      exact ⟨⟨⟨by omega, h'.1.1.2⟩, h'.1.2⟩, h'.2⟩
    · split
      · rename_i hxa
        rw [readCell_consCell (hxa ▸ h'.2)]
        by_cases hxy : x = y <;> simp [readCell, ← hxa, hxy]
      · rename_i h1 h2
        simp only [readCell, ih h'.2]
        split
        · rename_i hay
          rw [if_neg (by omega)]
        · rfl

/-- Every write keeps the canonical form of the buffer. -/
theorem writeBuf_wf {m : Memory} {i : Nat} {v : Byte} (h : m.wf = true) : Memory.wf (writeBuf m i v) = true := by
  unfold writeBuf
  split
  · rename_i hi
    exact wfFrom_storeCell h (Nat.zero_le _) hi
  · exact h

/-- A read after a write (R35). -/
theorem readCell_writeBuf {m : Memory} {i a : Nat} {v : Byte} (h : m.wf = true) :
    readCell (writeBuf m i v) a = if i = a ∧ i < maxPayload then v else readCell m a := by
  unfold writeBuf
  split
  · rename_i hi
    rw [readCell_storeCell h]
    simp [hi]
  · rename_i hi
    rw [if_neg (by omega)]

/-- The buffer after reset is canonical. -/
theorem reset_buf_wf : State.reset.rx.buf.wf = true := rfl

@[simp] theorem readPayload_length (m : Memory) (n : Nat) : (readPayload m n).length = n := by
  simp [readPayload]

/-- One more cell of the payload. -/
theorem readPayload_succ (m : Memory) (n : Nat) : readPayload m (n + 1) = readPayload m n ++ [readCell m n] := by
  simp [readPayload, List.range_succ]

/-- Cells that read the same give the same payload. -/
theorem readPayload_congr {m m' : Memory} {n : Nat} (h : ∀ a < n, readCell m a = readCell m' a) :
    readPayload m n = readPayload m' n := by
  simp only [readPayload]
  exact List.map_congr_left fun a ha => h a (List.mem_range.mp ha)

end Sys2Proof.Machine
end

