-- ==== Sys2Proof/Laws/State.lean ====
section
/-! SUPPORT. One lemma per field per update of the state, and per view of the trace. -/

namespace Sys2Proof.Machine

section
variable (s : State) (r : Rx)
@[simp] theorem State.withRx_params : (s.withRx r).params = s.params := rfl
@[simp] theorem State.withRx_rx : (s.withRx r).rx = r := rfl
@[simp] theorem State.withRx_tx : (s.withRx r).tx = s.tx := rfl
@[simp] theorem State.withRx_frame : (s.withRx r).frame = s.frame := rfl
@[simp] theorem State.withRx_agenda : (s.withRx r).agenda = s.agenda := rfl
@[simp] theorem State.withRx_hung : (s.withRx r).hung = s.hung := rfl
@[simp] theorem State.withRx_sinkReady : (s.withRx r).sinkReady = s.sinkReady := rfl
@[simp] theorem State.withRx_handlers : (s.withRx r).handlers = s.handlers := rfl
@[simp] theorem State.withRx_inputs : (s.withRx r).inputs = s.inputs := rfl
@[simp] theorem State.withRx_trace : (s.withRx r).trace = s.trace := rfl
@[simp] theorem State.withRx_fnResult : (s.withRx r).fnResult = s.fnResult := rfl
@[simp] theorem State.withRx_txStream : (s.withRx r).txStream = s.txStream := rfl
@[simp] theorem State.withRx_framesOut : (s.withRx r).framesOut = s.framesOut := rfl
@[simp] theorem State.withRx_sendResults : (s.withRx r).sendResults = s.sendResults := rfl
@[simp] theorem State.withRx_handlerCalls : (s.withRx r).handlerCalls = s.handlerCalls := rfl
end

section
variable (s : State) (r : Tx)
@[simp] theorem State.withTx_params : (s.withTx r).params = s.params := rfl
@[simp] theorem State.withTx_rx : (s.withTx r).rx = s.rx := rfl
@[simp] theorem State.withTx_tx : (s.withTx r).tx = r := rfl
@[simp] theorem State.withTx_frame : (s.withTx r).frame = s.frame := rfl
@[simp] theorem State.withTx_agenda : (s.withTx r).agenda = s.agenda := rfl
@[simp] theorem State.withTx_hung : (s.withTx r).hung = s.hung := rfl
@[simp] theorem State.withTx_sinkReady : (s.withTx r).sinkReady = s.sinkReady := rfl
@[simp] theorem State.withTx_handlers : (s.withTx r).handlers = s.handlers := rfl
@[simp] theorem State.withTx_inputs : (s.withTx r).inputs = s.inputs := rfl
@[simp] theorem State.withTx_trace : (s.withTx r).trace = s.trace := rfl
@[simp] theorem State.withTx_fnResult : (s.withTx r).fnResult = s.fnResult := rfl
@[simp] theorem State.withTx_txStream : (s.withTx r).txStream = s.txStream := rfl
@[simp] theorem State.withTx_framesOut : (s.withTx r).framesOut = s.framesOut := rfl
@[simp] theorem State.withTx_sendResults : (s.withTx r).sendResults = s.sendResults := rfl
@[simp] theorem State.withTx_handlerCalls : (s.withTx r).handlerCalls = s.handlerCalls := rfl
end

section
variable (s : State) (r : Option Frame)
@[simp] theorem State.withFrame_params : (s.withFrame r).params = s.params := rfl
@[simp] theorem State.withFrame_rx : (s.withFrame r).rx = s.rx := rfl
@[simp] theorem State.withFrame_tx : (s.withFrame r).tx = s.tx := rfl
@[simp] theorem State.withFrame_frame : (s.withFrame r).frame = r := rfl
@[simp] theorem State.withFrame_agenda : (s.withFrame r).agenda = s.agenda := rfl
@[simp] theorem State.withFrame_hung : (s.withFrame r).hung = s.hung := rfl
@[simp] theorem State.withFrame_sinkReady : (s.withFrame r).sinkReady = s.sinkReady := rfl
@[simp] theorem State.withFrame_handlers : (s.withFrame r).handlers = s.handlers := rfl
@[simp] theorem State.withFrame_inputs : (s.withFrame r).inputs = s.inputs := rfl
@[simp] theorem State.withFrame_trace : (s.withFrame r).trace = s.trace := rfl
@[simp] theorem State.withFrame_fnResult : (s.withFrame r).fnResult = s.fnResult := rfl
@[simp] theorem State.withFrame_txStream : (s.withFrame r).txStream = s.txStream := rfl
@[simp] theorem State.withFrame_framesOut : (s.withFrame r).framesOut = s.framesOut := rfl
@[simp] theorem State.withFrame_sendResults : (s.withFrame r).sendResults = s.sendResults := rfl
@[simp] theorem State.withFrame_handlerCalls : (s.withFrame r).handlerCalls = s.handlerCalls := rfl
end

section
variable (s : State) (r : List Action)
@[simp] theorem State.withAgenda_params : (s.withAgenda r).params = s.params := rfl
@[simp] theorem State.withAgenda_rx : (s.withAgenda r).rx = s.rx := rfl
@[simp] theorem State.withAgenda_tx : (s.withAgenda r).tx = s.tx := rfl
@[simp] theorem State.withAgenda_frame : (s.withAgenda r).frame = s.frame := rfl
@[simp] theorem State.withAgenda_agenda : (s.withAgenda r).agenda = r := rfl
@[simp] theorem State.withAgenda_hung : (s.withAgenda r).hung = s.hung := rfl
@[simp] theorem State.withAgenda_sinkReady : (s.withAgenda r).sinkReady = s.sinkReady := rfl
@[simp] theorem State.withAgenda_handlers : (s.withAgenda r).handlers = s.handlers := rfl
@[simp] theorem State.withAgenda_inputs : (s.withAgenda r).inputs = s.inputs := rfl
@[simp] theorem State.withAgenda_trace : (s.withAgenda r).trace = s.trace := rfl
@[simp] theorem State.withAgenda_fnResult : (s.withAgenda r).fnResult = s.fnResult := rfl
@[simp] theorem State.withAgenda_txStream : (s.withAgenda r).txStream = s.txStream := rfl
@[simp] theorem State.withAgenda_framesOut : (s.withAgenda r).framesOut = s.framesOut := rfl
@[simp] theorem State.withAgenda_sendResults : (s.withAgenda r).sendResults = s.sendResults := rfl
@[simp] theorem State.withAgenda_handlerCalls : (s.withAgenda r).handlerCalls = s.handlerCalls := rfl
end

section
variable (s : State) (r : Bool)
@[simp] theorem State.withHung_params : (s.withHung r).params = s.params := rfl
@[simp] theorem State.withHung_rx : (s.withHung r).rx = s.rx := rfl
@[simp] theorem State.withHung_tx : (s.withHung r).tx = s.tx := rfl
@[simp] theorem State.withHung_frame : (s.withHung r).frame = s.frame := rfl
@[simp] theorem State.withHung_agenda : (s.withHung r).agenda = s.agenda := rfl
@[simp] theorem State.withHung_hung : (s.withHung r).hung = r := rfl
@[simp] theorem State.withHung_sinkReady : (s.withHung r).sinkReady = s.sinkReady := rfl
@[simp] theorem State.withHung_handlers : (s.withHung r).handlers = s.handlers := rfl
@[simp] theorem State.withHung_inputs : (s.withHung r).inputs = s.inputs := rfl
@[simp] theorem State.withHung_trace : (s.withHung r).trace = s.trace := rfl
@[simp] theorem State.withHung_fnResult : (s.withHung r).fnResult = s.fnResult := rfl
@[simp] theorem State.withHung_txStream : (s.withHung r).txStream = s.txStream := rfl
@[simp] theorem State.withHung_framesOut : (s.withHung r).framesOut = s.framesOut := rfl
@[simp] theorem State.withHung_sendResults : (s.withHung r).sendResults = s.sendResults := rfl
@[simp] theorem State.withHung_handlerCalls : (s.withHung r).handlerCalls = s.handlerCalls := rfl
end

section
variable (s : State) (r : Bool)
@[simp] theorem State.withSink_params : (s.withSink r).params = s.params := rfl
@[simp] theorem State.withSink_rx : (s.withSink r).rx = s.rx := rfl
@[simp] theorem State.withSink_tx : (s.withSink r).tx = s.tx := rfl
@[simp] theorem State.withSink_frame : (s.withSink r).frame = s.frame := rfl
@[simp] theorem State.withSink_agenda : (s.withSink r).agenda = s.agenda := rfl
@[simp] theorem State.withSink_hung : (s.withSink r).hung = s.hung := rfl
@[simp] theorem State.withSink_sinkReady : (s.withSink r).sinkReady = r := rfl
@[simp] theorem State.withSink_handlers : (s.withSink r).handlers = s.handlers := rfl
@[simp] theorem State.withSink_inputs : (s.withSink r).inputs = s.inputs := rfl
@[simp] theorem State.withSink_trace : (s.withSink r).trace = s.trace := rfl
@[simp] theorem State.withSink_fnResult : (s.withSink r).fnResult = s.fnResult := rfl
@[simp] theorem State.withSink_txStream : (s.withSink r).txStream = s.txStream := rfl
@[simp] theorem State.withSink_framesOut : (s.withSink r).framesOut = s.framesOut := rfl
@[simp] theorem State.withSink_sendResults : (s.withSink r).sendResults = s.sendResults := rfl
@[simp] theorem State.withSink_handlerCalls : (s.withSink r).handlerCalls = s.handlerCalls := rfl
end

section
variable (s : State) (r : List HandlerRun)
@[simp] theorem State.withHandlers_params : (s.withHandlers r).params = s.params := rfl
@[simp] theorem State.withHandlers_rx : (s.withHandlers r).rx = s.rx := rfl
@[simp] theorem State.withHandlers_tx : (s.withHandlers r).tx = s.tx := rfl
@[simp] theorem State.withHandlers_frame : (s.withHandlers r).frame = s.frame := rfl
@[simp] theorem State.withHandlers_agenda : (s.withHandlers r).agenda = s.agenda := rfl
@[simp] theorem State.withHandlers_hung : (s.withHandlers r).hung = s.hung := rfl
@[simp] theorem State.withHandlers_sinkReady : (s.withHandlers r).sinkReady = s.sinkReady := rfl
@[simp] theorem State.withHandlers_handlers : (s.withHandlers r).handlers = r := rfl
@[simp] theorem State.withHandlers_inputs : (s.withHandlers r).inputs = s.inputs := rfl
@[simp] theorem State.withHandlers_trace : (s.withHandlers r).trace = s.trace := rfl
@[simp] theorem State.withHandlers_fnResult : (s.withHandlers r).fnResult = s.fnResult := rfl
@[simp] theorem State.withHandlers_txStream : (s.withHandlers r).txStream = s.txStream := rfl
@[simp] theorem State.withHandlers_framesOut : (s.withHandlers r).framesOut = s.framesOut := rfl
@[simp] theorem State.withHandlers_sendResults : (s.withHandlers r).sendResults = s.sendResults := rfl
@[simp] theorem State.withHandlers_handlerCalls : (s.withHandlers r).handlerCalls = s.handlerCalls := rfl
end

section
variable (s : State) (r : List Input)
@[simp] theorem State.withInputs_params : (s.withInputs r).params = s.params := rfl
@[simp] theorem State.withInputs_rx : (s.withInputs r).rx = s.rx := rfl
@[simp] theorem State.withInputs_tx : (s.withInputs r).tx = s.tx := rfl
@[simp] theorem State.withInputs_frame : (s.withInputs r).frame = s.frame := rfl
@[simp] theorem State.withInputs_agenda : (s.withInputs r).agenda = s.agenda := rfl
@[simp] theorem State.withInputs_hung : (s.withInputs r).hung = s.hung := rfl
@[simp] theorem State.withInputs_sinkReady : (s.withInputs r).sinkReady = s.sinkReady := rfl
@[simp] theorem State.withInputs_handlers : (s.withInputs r).handlers = s.handlers := rfl
@[simp] theorem State.withInputs_inputs : (s.withInputs r).inputs = r := rfl
@[simp] theorem State.withInputs_trace : (s.withInputs r).trace = s.trace := rfl
@[simp] theorem State.withInputs_fnResult : (s.withInputs r).fnResult = s.fnResult := rfl
@[simp] theorem State.withInputs_txStream : (s.withInputs r).txStream = s.txStream := rfl
@[simp] theorem State.withInputs_framesOut : (s.withInputs r).framesOut = s.framesOut := rfl
@[simp] theorem State.withInputs_sendResults : (s.withInputs r).sendResults = s.sendResults := rfl
@[simp] theorem State.withInputs_handlerCalls : (s.withInputs r).handlerCalls = s.handlerCalls := rfl
end

section
variable (s : State) (r : FnResult)
@[simp] theorem State.withFnResult_params : (s.withFnResult r).params = s.params := rfl
@[simp] theorem State.withFnResult_rx : (s.withFnResult r).rx = s.rx := rfl
@[simp] theorem State.withFnResult_tx : (s.withFnResult r).tx = s.tx := rfl
@[simp] theorem State.withFnResult_frame : (s.withFnResult r).frame = s.frame := rfl
@[simp] theorem State.withFnResult_agenda : (s.withFnResult r).agenda = s.agenda := rfl
@[simp] theorem State.withFnResult_hung : (s.withFnResult r).hung = s.hung := rfl
@[simp] theorem State.withFnResult_sinkReady : (s.withFnResult r).sinkReady = s.sinkReady := rfl
@[simp] theorem State.withFnResult_handlers : (s.withFnResult r).handlers = s.handlers := rfl
@[simp] theorem State.withFnResult_inputs : (s.withFnResult r).inputs = s.inputs := rfl
@[simp] theorem State.withFnResult_trace : (s.withFnResult r).trace = s.trace := rfl
@[simp] theorem State.withFnResult_fnResult : (s.withFnResult r).fnResult = r := rfl
@[simp] theorem State.withFnResult_txStream : (s.withFnResult r).txStream = s.txStream := rfl
@[simp] theorem State.withFnResult_framesOut : (s.withFnResult r).framesOut = s.framesOut := rfl
@[simp] theorem State.withFnResult_sendResults : (s.withFnResult r).sendResults = s.sendResults := rfl
@[simp] theorem State.withFnResult_handlerCalls : (s.withFnResult r).handlerCalls = s.handlerCalls := rfl
end

section
variable (s : State) (o : List Obs)
@[simp] theorem State.emit_params : (s.emit o).params = s.params := rfl
@[simp] theorem State.emit_rx : (s.emit o).rx = s.rx := rfl
@[simp] theorem State.emit_tx : (s.emit o).tx = s.tx := rfl
@[simp] theorem State.emit_frame : (s.emit o).frame = s.frame := rfl
@[simp] theorem State.emit_agenda : (s.emit o).agenda = s.agenda := rfl
@[simp] theorem State.emit_hung : (s.emit o).hung = s.hung := rfl
@[simp] theorem State.emit_sinkReady : (s.emit o).sinkReady = s.sinkReady := rfl
@[simp] theorem State.emit_handlers : (s.emit o).handlers = s.handlers := rfl
@[simp] theorem State.emit_inputs : (s.emit o).inputs = s.inputs := rfl
@[simp] theorem State.emit_trace : (s.emit o).trace = s.trace ++ o := rfl
@[simp] theorem State.emit_fnResult : (s.emit o).fnResult = s.fnResult := rfl
end

@[simp] theorem State.emit_nil (s : State) : s.emit [] = s := by simp [State.emit]

theorem State.emit_emit (s : State) (o o' : List Obs) : (s.emit o).emit o' = s.emit (o ++ o') := by
  simp [State.emit, List.append_assoc]

/-- More seen is more in each view. -/
theorem State.emit_txStream (s : State) (o : List Obs) :
    (s.emit o).txStream = s.txStream ++ o.filterMap seenByte := by
  simp [State.txStream, State.emit]

theorem State.emit_framesOut (s : State) (o : List Obs) :
    (s.emit o).framesOut = s.framesOut ++ o.filterMap seenFrame := by
  simp [State.framesOut, State.emit]

theorem State.emit_sendResults (s : State) (o : List Obs) :
    (s.emit o).sendResults = s.sendResults ++ o.filterMap seenResult := by
  simp [State.sendResults, State.emit]

theorem State.emit_handlerCalls (s : State) (o : List Obs) :
    (s.emit o).handlerCalls = s.handlerCalls ++ o.filterMap seenCall := by
  simp [State.handlerCalls, State.emit]

/-! What each view sees of one observation, and of a frame's bytes. -/

@[simp] theorem seenByte_tx (b : Byte) : seenByte (.tx b) = some b := rfl
@[simp] theorem seenByte_frameOut (f : Frame) : seenByte (.frameOut f) = none := rfl
@[simp] theorem seenByte_sendResult (ok : Bool) : seenByte (.sendResult ok) = none := rfl
@[simp] theorem seenByte_call (h : Handler) : seenByte (.call h) = none := rfl
@[simp] theorem seenByte_wait (w : Wait) : seenByte (.wait w) = none := rfl
@[simp] theorem seenFrame_tx (b : Byte) : seenFrame (.tx b) = none := rfl
@[simp] theorem seenFrame_frameOut (f : Frame) : seenFrame (.frameOut f) = some f := rfl
@[simp] theorem seenFrame_sendResult (ok : Bool) : seenFrame (.sendResult ok) = none := rfl
@[simp] theorem seenFrame_call (h : Handler) : seenFrame (.call h) = none := rfl
@[simp] theorem seenFrame_wait (w : Wait) : seenFrame (.wait w) = none := rfl
@[simp] theorem seenCall_tx (b : Byte) : seenCall (.tx b) = none := rfl
@[simp] theorem seenCall_frameOut (f : Frame) : seenCall (.frameOut f) = none := rfl
@[simp] theorem seenCall_sendResult (ok : Bool) : seenCall (.sendResult ok) = none := rfl
@[simp] theorem seenCall_call (h : Handler) : seenCall (.call h) = some h := rfl
@[simp] theorem seenCall_wait (w : Wait) : seenCall (.wait w) = none := rfl

theorem filterMap_seenByte_map_tx (l : List Byte) : (l.map Obs.tx).filterMap seenByte = l := by
  induction l <;> simp [*]

theorem filterMap_seenFrame_map_tx (l : List Byte) : (l.map Obs.tx).filterMap seenFrame = [] := by
  induction l <;> simp [*]

theorem filterMap_seenCall_map_tx (l : List Byte) : (l.map Obs.tx).filterMap seenCall = [] := by
  induction l <;> simp [*]

@[simp] theorem atomic_emit (s : State) (o : List Obs) : atomic (s.emit o) = atomic s := rfl
@[simp] theorem atomic_withRx (s : State) (r : Rx) : atomic (s.withRx r) = atomic s := rfl
@[simp] theorem atomic_withHandlers (s : State) (l : List HandlerRun) : atomic (s.withHandlers l) = atomic s := rfl
@[simp] theorem atomic_withAgenda (s : State) (l : List Action) : atomic (s.withAgenda l) = atomic s := rfl
@[simp] theorem atomic_withHung (s : State) (b : Bool) : atomic (s.withHung b) = atomic s := rfl
@[simp] theorem atomic_withFrame (s : State) (f : Option Frame) : atomic (s.withFrame f) = atomic s := rfl
@[simp] theorem atomic_withInputs (s : State) (l : List Input) : atomic (s.withInputs l) = atomic s := rfl

/-- What makes a send or a dispatch one step. -/
theorem atomic_iff (s : State) :
    atomic s = true ↔ s.params.level = .transaction ∧ s.sinkReady = true ∧ s.tx.state = .idle := by
  simp [atomic, and_assoc]

end Sys2Proof.Machine
end

