-- ==== Sys2Proof/Laws/Ops.lean ====
section
/-! SUPPORT. What each shared operation can do, said once. -/

namespace Sys2Proof.Machine

/-- What every send, handler call and dispatch keeps, and that what has been seen stays seen. -/
structure Keeps (s t : State) : Prop where
  rx : t.rx = s.rx
  params : t.params = s.params
  frame : t.frame = s.frame
  inputs : t.inputs = s.inputs
  sinkReady : t.sinkReady = s.sinkReady
  fnResult : t.fnResult = s.fnResult
  trace : s.trace <+: t.trace

theorem Keeps.refl (s : State) : Keeps s s :=
  ⟨rfl, rfl, rfl, rfl, rfl, rfl, List.prefix_refl _⟩

theorem Keeps.trans {s t u : State} (h : Keeps s t) (h' : Keeps t u) : Keeps s u :=
  ⟨h'.rx.trans h.rx, h'.params.trans h.params, h'.frame.trans h.frame, h'.inputs.trans h.inputs,
    h'.sinkReady.trans h.sinkReady, h'.fnResult.trans h.fnResult, h.trace.trans h'.trace⟩

theorem keeps_emit (s : State) (o : List Obs) : Keeps s (s.emit o) :=
  ⟨rfl, rfl, rfl, rfl, rfl, rfl, List.prefix_append _ _⟩

theorem keeps_withAgenda (s : State) (l : List Action) : Keeps s (s.withAgenda l) :=
  ⟨rfl, rfl, rfl, rfl, rfl, rfl, List.prefix_refl _⟩

theorem keeps_withTx (s : State) (t : Tx) : Keeps s (s.withTx t) :=
  ⟨rfl, rfl, rfl, rfl, rfl, rfl, List.prefix_refl _⟩

theorem keeps_withHandlers (s : State) (l : List HandlerRun) : Keeps s (s.withHandlers l) :=
  ⟨rfl, rfl, rfl, rfl, rfl, rfl, List.prefix_refl _⟩

theorem keeps_hang (s : State) : Keeps s (hang s) :=
  ⟨rfl, rfl, rfl, rfl, rfl, rfl, List.prefix_refl _⟩

/-- The four things a send can do (R100, R101, R105, R110). -/
theorem send_cases (c : Byte) (p : List Byte) (s : State) :
    (maxPayload < p.length ∧ send c p s = s.emit [.sendResult false]) ∨
    (p.length ≤ maxPayload ∧ atomic s = true ∧
      send c p s = s.emit ((wireFrame c p).map Obs.tx ++ [.sendResult true])) ∨
    (p.length ≤ maxPayload ∧ atomic s = false ∧ s.tx.state = .idle ∧ send c p s = s.withTx (acceptSend s.tx c p)) ∨
    (p.length ≤ maxPayload ∧ s.tx.state ≠ .idle ∧ send c p s = s.withAgenda (s.agenda ++ [.send (.send c p)])) := by
  unfold send refuseSend
  split
  · exact .inl ⟨‹_›, rfl⟩
  · rename_i hp
    have hp := Nat.le_of_not_lt hp
    split
    · exact .inr (.inl ⟨hp, ‹_›, rfl⟩)
    · rename_i ha
      split
      · exact .inr (.inr (.inl ⟨hp, by simpa using ha, ‹_›, rfl⟩))
      · exact .inr (.inr (.inr ⟨hp, ‹_›, rfl⟩))

theorem keeps_send (c : Byte) (p : List Byte) (s : State) : Keeps s (send c p s) := by
  obtain ⟨-, h⟩ | ⟨-, -, h⟩ | ⟨-, -, -, h⟩ | ⟨-, -, h⟩ := send_cases c p s <;> rw [h]
  · exact keeps_emit _ _
  · exact keeps_emit _ _
  · exact keeps_withTx _ _
  · exact keeps_withAgenda _ _

theorem keeps_sendRequest (r : Request) (s : State) : Keeps s (sendRequest r s) :=
  keeps_send _ _ _

theorem keeps_sendAll (rs : List Request) (s : State) : Keeps s (sendAll rs s) := by
  induction rs generalizing s with
  | nil => exact Keeps.refl s
  | cons r rs ih => exact (keeps_sendRequest r s).trans (ih _)

theorem keeps_callHandler (h : Handler) (s : State) : Keeps s (callHandler h s) := by
  have hc : Keeps s ((s.emit [.call h]).withHandlers s.handlers.tail) :=
    (keeps_emit s _).trans (keeps_withHandlers _ _)
  simp only [callHandler]
  split
  · split
    · exact hc.trans ((keeps_sendAll _ _).trans (keeps_hang _))
    · exact hc.trans (keeps_sendAll _ _)
  · exact hc.trans (keeps_withAgenda _ _)

theorem keeps_perform (a : Action) (s : State) : Keeps s (perform a s) := by
  cases a with
  | call h => exact keeps_callHandler h s
  | send r => exact keeps_sendRequest r s
  | wait w => exact keeps_emit s _
  | hang => exact keeps_hang s
  | done => exact Keeps.refl s

theorem keeps_runActions (as : List Action) (s : State) : Keeps s (runActions as s) := by
  induction as generalizing s with
  | nil => exact Keeps.refl s
  | cons a as ih =>
    simp only [runActions]
    split
    · exact keeps_perform a s
    · exact (keeps_perform a s).trans (ih _)

theorem keeps_dispatch (as : List Action) (s : State) : Keeps s (dispatch as s) := by
  unfold dispatch
  split
  · exact keeps_runActions as s
  · exact keeps_withAgenda s _

/-- What a delivered frame can do (R79, R24): dispatched in the step, or held at the FRAME port. -/
theorem deliver_cases (f : Frame) (s : State) :
    (atomic s = true ∧ deliver f s =
      runActions (commandActions s.params (classify s.params f.cmd) f.payload) (s.emit [.frameOut f])) ∨
    (atomic s = false ∧ deliver f s = (s.emit [.frameOut f]).withFrame (some f)) := by
  cases ha : atomic s
  · exact .inr ⟨rfl, by simp [deliver, ha]⟩
  · exact .inl ⟨rfl, by simp [deliver, ha]⟩

/-! ## Where sends are one step -/

theorem send_of_atomic {s : State} (ha : atomic s = true) (c : Byte) (p : List Byte) :
    send c p s = s.emit (sendObs c p) := by
  unfold send sendObs refuseSend
  by_cases hp : p.length ≤ maxPayload
  · rw [if_neg (by omega), if_pos ha, if_pos hp]
  · rw [if_pos (by omega), if_neg hp]

theorem sendRequest_of_atomic {s : State} (ha : atomic s = true) (r : Request) :
    sendRequest r s = s.emit (requestObs s.params r) :=
  send_of_atomic ha _ _

theorem sendAll_of_atomic {s : State} (ha : atomic s = true) (rs : List Request) :
    sendAll rs s = s.emit (rs.flatMap (requestObs s.params)) := by
  induction rs generalizing s with
  | nil => simp [sendAll]
  | cons r rs ih =>
    rw [sendAll, sendRequest_of_atomic ha, ih (by simpa using ha), State.emit_emit, State.emit_params,
      List.flatMap_cons]

/-- A handler call where sends are one step: seen with all its sends; then it returns or not. -/
theorem callHandler_of_atomic {s : State} (ha : atomic s = true) (h : Handler) :
    callHandler h s =
      (if neverReturns h (nextRun s) then
        hang ((s.withHandlers s.handlers.tail).emit (callObs s.params h (nextRun s)))
      else (s.withHandlers s.handlers.tail).emit (callObs s.params h (nextRun s))) := by
  have hc : atomic ((s.emit [.call h]).withHandlers s.handlers.tail) = true := by simpa using ha
  have hs : sendAll (nextRun s).sends ((s.emit [.call h]).withHandlers s.handlers.tail) =
      (s.withHandlers s.handlers.tail).emit (callObs s.params h (nextRun s)) := by
    rw [sendAll_of_atomic hc]
    simp [State.emit, State.withHandlers, callObs]
  simp only [callHandler, hc, if_true, hs]

theorem dispatch_of_atomic {s : State} (ha : atomic s = true) (as : List Action) :
    dispatch as s = runActions as s := if_pos ha

theorem dispatch_of_not_atomic {s : State} (ha : atomic s = false) (as : List Action) :
    dispatch as s = s.withAgenda (s.agenda ++ as ++ [.done]) := by simp [dispatch, ha]

end Sys2Proof.Machine
end

