-- ==== Sys2Proof/Laws/PerInstr.lean ====
section
/-! SUPPORT. Statements made for every operation, one lemma per constructor. -/

namespace Sys2Proof.Laws.WireFrame

open Machine

/-- If an operation's encoding is a frame, it is `encode(command, payload)` of R100 for some command byte and a payload of
at most 64 bytes: START first, END last, LENGTH the payload's own (R45, R48). -/
def Statement (i : Instr) : Prop :=
  ∀ P d bytes, WellFormed P i = true → encode P i = some (.wire d bytes) →
    ∃ c p, p.length ≤ maxPayload ∧ bytes = wireFrame c p

@[simp] theorem bytesOfWord_length (o : ByteOrder) (w : Word32) : (bytesOfWord o w).length = 4 := by
  cases o <;> rfl

theorem of_command {P : Params} {k : Command} {p : List Byte} {d : Direction} {bytes : List Byte}
    (hp : p.length ≤ maxPayload) (h : commandCodeWord P k p = some (.wire d bytes)) :
    ∃ c p, p.length ≤ maxPayload ∧ bytes = wireFrame c p := by
  simp only [commandCodeWord, Option.some.injEq, Code.wire.injEq] at h
  exact ⟨_, p, hp, h.2.symm⟩

theorem of_response {P : Params} {r : Response} {d : Direction} {bytes : List Byte}
    (hp : (responsePayload P r).length ≤ maxPayload) (h : responseCodeWord P r = some (.wire d bytes)) :
    ∃ c p, p.length ≤ maxPayload ∧ bytes = wireFrame c p := by
  simp only [responseCodeWord, Option.some.injEq, Code.wire.injEq] at h
  exact ⟨_, _, hp, h.2.symm⟩

theorem rxIdleStart : Statement .rxIdleStart := fun _ _ _ _ h => by cases h

theorem rxIdleSkip (b : Byte) : Statement (.rxIdleSkip b) := fun _ _ _ _ h => by cases h

theorem rxCmd (b : Byte) : Statement (.rxCmd b) := fun _ _ _ _ h => by cases h

theorem rxLenOver (b : Byte) : Statement (.rxLenOver b) := fun _ _ _ _ h => by cases h

theorem rxLenZero : Statement .rxLenZero := fun _ _ _ _ h => by cases h

theorem rxLenData (b : Byte) : Statement (.rxLenData b) := fun _ _ _ _ h => by cases h

theorem rxDataMore (b : Byte) : Statement (.rxDataMore b) := fun _ _ _ _ h => by cases h

theorem rxDataLast (b : Byte) : Statement (.rxDataLast b) := fun _ _ _ _ h => by cases h

theorem rxCsumOk (b : Byte) : Statement (.rxCsumOk b) := fun _ _ _ _ h => by cases h

theorem rxCsumBad (b : Byte) : Statement (.rxCsumBad b) := fun _ _ _ _ h => by cases h

theorem csumFn (command length : Byte) (payload : List Byte) : Statement (.csumFn command length payload) := fun _ _ _ _ h => by cases h

theorem csumAcc (side : AccSide) (op : AccOp) (b : Byte) : Statement (.csumAcc side op b) := fun _ _ _ _ h => by cases h

theorem csumCmp (b expected : Byte) : Statement (.csumCmp b expected) := fun _ _ _ _ h => by cases h

theorem txSend (command : Byte) (payload : List Byte) : Statement (.txSend command payload) := fun _ _ _ _ h => by cases h

theorem txSendRefuse (command : Byte) (payload : List Byte) : Statement (.txSendRefuse command payload) := fun _ _ _ _ h => by cases h

theorem txAck : Statement .txAck := fun _ _ _ _ h => by cases h

theorem txNack : Statement .txNack := fun _ _ _ _ h => by cases h

theorem txByteStart : Statement .txByteStart := fun _ _ _ _ h => by cases h

theorem txByteCmd : Statement .txByteCmd := fun _ _ _ _ h => by cases h

theorem txByteLen : Statement .txByteLen := fun _ _ _ _ h => by cases h

theorem txByteData : Statement .txByteData := fun _ _ _ _ h => by cases h

theorem txByteCsum : Statement .txByteCsum := fun _ _ _ _ h => by cases h

theorem txByteEnd : Statement .txByteEnd := fun _ _ _ _ h => by cases h

theorem resetAssert : Statement .resetAssert := fun _ _ _ _ h => by cases h

theorem motorSetSpeed (payload : List Byte) : Statement (.motorSetSpeed payload) := fun _ _ _ hw h => of_command (of_decide_eq_true hw) h

theorem motorStop (payload : List Byte) : Statement (.motorStop payload) := fun _ _ _ hw h => of_command (of_decide_eq_true hw) h

theorem motorEstop (payload : List Byte) : Statement (.motorEstop payload) := fun _ _ _ hw h => of_command (of_decide_eq_true hw) h

theorem imuReq (payload : List Byte) : Statement (.imuReq payload) := fun _ _ _ hw h => of_command (of_decide_eq_true hw) h

theorem ultrasonicReq (payload : List Byte) : Statement (.ultrasonicReq payload) := fun _ _ _ hw h => of_command (of_decide_eq_true hw) h

theorem allSensorsReq (payload : List Byte) : Statement (.allSensorsReq payload) := fun _ _ _ hw h => of_command (of_decide_eq_true hw) h

theorem ledControl (payload : List Byte) : Statement (.ledControl payload) := fun _ _ _ hw h => of_command (of_decide_eq_true hw) h

theorem buzzerControl (payload : List Byte) : Statement (.buzzerControl payload) := fun _ _ _ hw h => of_command (of_decide_eq_true hw) h

theorem statusReq (payload : List Byte) : Statement (.statusReq payload) := fun _ _ _ hw h => of_command (of_decide_eq_true hw) h

theorem resetCommand (payload : List Byte) : Statement (.resetCommand payload) := fun _ _ _ hw h => of_command (of_decide_eq_true hw) h

theorem unknown (command : Byte) (payload : List Byte) : Statement (.unknown command payload) := by
  intro P d bytes hw h
  simp only [encode, Option.some.injEq, Code.wire.injEq] at h
  exact ⟨_, payload, (of_decide_eq_true hw).2, h.2.symm⟩

theorem ack : Statement .ack := fun _ _ _ _ h => of_response (by simp [responsePayload]) h

theorem nack : Statement .nack := fun _ _ _ _ h => of_response (by simp [responsePayload]) h

theorem imuData (r : ImuRecord) : Statement (.imuData r) := fun _ _ _ _ h => of_response (by simp [responsePayload, imuPayload, maxPayload]) h

theorem ultrasonicData (r : UltrasonicRecord) : Statement (.ultrasonicData r) := fun _ _ _ _ h => of_response (by simp [responsePayload, ultrasonicPayload, maxPayload]) h

theorem allSensorsData (payload : List Byte) : Statement (.allSensorsData payload) := fun P _ _ hw h =>
  of_response (P := P) (r := .allSensorsData payload) (of_decide_eq_true hw) h

theorem systemStatus (r : StatusRecord) : Statement (.systemStatus r) := fun _ _ _ _ h => of_response (by simp [responsePayload, statusPayload, maxPayload]) h

end Sys2Proof.Laws.WireFrame
end

