-- ==== Sys2Proof/Laws/Step.lean ====
section
/-! SUPPORT. What the next step can be, said once: the inversion of `work`, `turn` and `step`. -/

namespace Sys2Proof.Machine

/-- What the work left can be: the frame at the FRAME port, a byte of the frame being written, an action. -/
theorem work_cases {s : State} {t : Turn} (h : work s = some t) :
    (∃ f, s.frame = some f ∧ t = .run (commandInstr s.params f.cmd f.payload) (s.withFrame none)) ∨
    (s.frame = none ∧ s.sinkReady = true ∧ ∃ i, txInstr s.tx.state = some i ∧ t = .run i s) ∨
    (s.frame = none ∧ s.tx.state = .idle ∧ ∃ a rest, s.agenda = a :: rest ∧
      ((∃ r, a = .send r ∧ t = .run (requestInstr r) (s.withAgenda rest)) ∨
        ((∀ r, a ≠ .send r) ∧ t = .env (perform a (s.withAgenda rest))))) := by
  unfold work at h
  split at h
  · exact .inl ⟨_, ‹_›, (Option.some.inj h).symm⟩
  · rename_i hf
    split at h
    · rename_i i hi
      split at h
      · exact .inr (.inl ⟨hf, ‹_›, i, hi, (Option.some.inj h).symm⟩)
      · cases h
    · rename_i hi
      have htx : s.tx.state = .idle := by
        cases hst : s.tx.state <;> simp [hst, txInstr] at hi ⊢
      split at h
      · cases h
      · rename_i a rest hag
        refine .inr (.inr ⟨hf, htx, a, rest, hag, ?_⟩)
        cases h
        cases a with
        | send r => exact .inl ⟨r, rfl, rfl⟩
        | call _ => exact .inr ⟨by simp, rfl⟩
        | wait _ => exact .inr ⟨by simp, rfl⟩
        | hang => exact .inr ⟨by simp, rfl⟩
        | done => exact .inr ⟨by simp, rfl⟩

/-- What the next step can be. -/
theorem turn_cases (s : State) :
    (∃ rest, s.inputs = .reset :: rest ∧ turn s = .run .resetAssert (s.withInputs rest)) ∨
    (∃ r rest, s.inputs = .sink r :: rest ∧ turn s = .env ((s.withInputs rest).withSink r)) ∨
    (∃ b rest, s.inputs = .rx b :: rest ∧ rxReady s = true ∧
      turn s = .run (receiveInstr s.rx b) (s.withInputs rest)) ∨
    (∃ r rest, s.inputs = .send r :: rest ∧ sendReady s = true ∧
      turn s = .run (requestInstr r) (s.withInputs rest)) ∨
    (∃ rest, s.inputs = .tick :: rest ∧ turn s = workOrWait (s.withInputs rest)) ∨
    (∃ b rest, s.inputs = .rx b :: rest ∧ rxReady s = false ∧ work s = none ∧ s.hung = true ∧
      turn s = .env (s.withInputs rest)) ∨
    turn s = workOrWait s := by
  unfold turn
  split
  · exact .inr (.inr (.inr (.inr (.inr (.inr rfl)))))
  · exact .inr (.inr (.inr (.inr (.inl ⟨_, ‹_›, rfl⟩))))
  · exact .inl ⟨_, ‹_›, rfl⟩
  · exact .inr (.inl ⟨_, _, ‹_›, rfl⟩)
  · rename_i b rest hin
    split
    · exact .inr (.inr (.inl ⟨b, rest, hin, ‹_›, rfl⟩))
    · rename_i hr
      unfold offered
      split
      · rename_i t ht
        exact .inr (.inr (.inr (.inr (.inr (.inr (by simp [workOrWait, ht]))))))
      · rename_i hw
        split
        · exact .inr (.inr (.inr (.inr (.inr (.inl ⟨b, rest, hin, by simpa using hr, hw, ‹_›, rfl⟩)))))
        · exact .inr (.inr (.inr (.inr (.inr (.inr (by simp [workOrWait, hw]))))))
  · rename_i r rest hin
    split
    · exact .inr (.inr (.inr (.inl ⟨r, rest, hin, ‹_›, rfl⟩)))
    · exact .inr (.inr (.inr (.inr (.inr (.inr rfl)))))

/-- What lets the block accept a request. -/
theorem sendReady_iff (s : State) :
    sendReady s = true ↔ s.frame = none ∧ s.agenda = [] ∧ s.tx.state = .idle := by
  simp [sendReady, and_assoc]

/-- What lets the block accept a byte. -/
theorem rxReady_iff (s : State) :
    rxReady s = true ↔ s.frame = none ∧ s.agenda = [] ∧ s.tx.state = .idle ∧ s.hung = false := by
  simp [rxReady, sendReady_iff, and_assoc]

/-- A frame half written and a sink that takes no byte: there is no work. -/
theorem work_of_stuck {s : State} (hf : s.frame = none) (ht : s.tx.state ≠ .idle) (hs : s.sinkReady = false) :
    work s = none := by
  cases h : s.tx.state <;> simp_all [work, txInstr]

theorem workOrWait_cases (s : State) : (∃ t, work s = some t ∧ workOrWait s = t) ∨ workOrWait s = .env s := by
  cases h : work s
  · exact .inr (by simp [workOrWait, h])
  · exact .inl ⟨_, rfl, by simp [workOrWait, h]⟩

theorem step_of_run {s t : State} {i : Instr} (h : turn s = .run i t) : step s = exec i t := by simp [step, h]

theorem step_of_env {s t : State} (h : turn s = .env t) : step s = .next t := by simp [step, h]

end Sys2Proof.Machine
end

