-- ==== Sys2Proof/Tests/Slice0.lean ====
section
/-! SUPPORT. Small tests: ill-formed operands, words written out from the spec, one step each, and for every statement with
hypotheses a witness that meets them. Expected values are those of spec/95_test_vectors.md, named by their identifiers, or of
the rule named. -/

namespace Sys2Proof.Tests

open Sys2Proof Sys2Proof.Machine

/-! ## Helpers -/

/-- The defaults of R9. -/
abbrev P : Params := Params.specDefault

/-- Lists of 64 and 65 bytes: the largest payload, and one more. -/
abbrev p64 : List Byte := List.replicate 64 0x01
abbrev p65 : List Byte := List.replicate 65 0x01

/-- The next state, if the outcome is one. -/
def nextOf : Host.Outcome State Fault Refusal → Option State
  | .next s => some s
  | .fault _ => none
  | .refused _ => none

/-- After reset, at the transaction level and at the port level. -/
abbrev s0 : State := State.reset
abbrev q0 : State := { State.reset with params := { P with level := .port } }

/-- After reset with chosen receiver registers. -/
def withR (st : RxState) (cmd len idx acc : Byte) (buf : Memory) : State :=
  s0.withRx { state := st, cmd := cmd, len := len, idx := idx, buf := buf, csum := 0, acc := acc }

/-- At the port level with chosen encoder registers. -/
def withT (st : TxState) (cmd len idx acc : Byte) (p : List Byte) : State :=
  q0.withTx { state := st, cmd := cmd, len := len, idx := idx, acc := acc, payload := p }

/-- What one operation does to the receiver registers, and whether anything was seen outside. -/
def rxAfter (i : Instr) (s : State) : Option (Rx × List Obs) :=
  (nextOf (exec i s)).map fun t => (t.rx, t.trace)

/-- What one operation does to the encoder registers, and what was seen outside. -/
def txAfter (i : Instr) (s : State) : Option (Tx × List Obs) :=
  (nextOf (exec i s)).map fun t => (t.tx, t.trace)

/-- The handler calls and the TX stream after one operation. -/
def seenAfter (i : Instr) (s : State) : Option (List Handler × List Byte) :=
  (nextOf (exec i s)).map fun t => (t.handlerCalls, t.txStream)

/-- The five bytes of the ACK, and of the NACK with the default code (E1, E2). -/
abbrev ackBytes : List Byte := [0xAA, 0xA0, 0x00, 0xA0, 0x55]
abbrev nackBytes : List Byte := [0xAA, 0xA1, 0x00, 0xA1, 0x55]

/-! ## Ill-formed operands -/

theorem test_skip_of_start_refused : WellFormed P (.rxIdleSkip 0xAA) = false := by decide
theorem test_len_over_64_refused : WellFormed P (.rxLenOver 64) = false ∧ WellFormed P (.rxLenOver 65) = true := by decide
theorem test_len_data_bounds_refused :
    WellFormed P (.rxLenData 0) = false ∧ WellFormed P (.rxLenData 65) = false ∧ WellFormed P (.rxLenData 64) = true := by
  decide
theorem test_send_65_refused : WellFormed P (.txSend 0x10 p65) = false ∧ WellFormed P (.txSend 0x10 p64) = true := by decide
theorem test_refuse_64_refused :
    WellFormed P (.txSendRefuse 0x10 p64) = false ∧ WellFormed P (.txSendRefuse 0x10 p65) = true := by decide
theorem test_motor_frames_65_refused :
    WellFormed P (.motorSetSpeed p65) = false ∧ WellFormed P (.motorStop p65) = false ∧
    WellFormed P (.motorEstop p65) = false := by decide
theorem test_request_frames_65_refused :
    WellFormed P (.imuReq p65) = false ∧ WellFormed P (.ultrasonicReq p65) = false ∧
    WellFormed P (.allSensorsReq p65) = false ∧ WellFormed P (.statusReq p65) = false := by decide
theorem test_control_frames_65_refused :
    WellFormed P (.ledControl p65) = false ∧ WellFormed P (.buzzerControl p65) = false ∧
    WellFormed P (.resetCommand p65) = false := by decide
theorem test_unknown_of_known_refused :
    WellFormed P (.unknown 0x02 []) = false ∧ WellFormed P (.unknown 0xFF p65) = false ∧
    WellFormed P (.unknown 0xFF []) = true := by decide
theorem test_all_sensors_data_65_refused :
    WellFormed P (.allSensorsData p65) = false ∧ WellFormed P (.allSensorsData p64) = true := by decide

/-! ## Keys written out from opcode_table.json -/

theorem test_key_rxIdleStart : decodeKey 0 0 0 0b00010101010 = .rxIdleStart := by decide
theorem test_key_rxIdleSkip : decodeKey 0 0 0 0b00001010101 = .rxIdleSkip 0x55 := by decide
theorem test_key_rxCmd : decodeKey 0 0 0 0b00110101010 = .rxCmd 0xAA := by decide
theorem test_key_rxLenOver :
    decodeKey 0 0 0 0b01001000001 = .rxLenOver 65 ∧ decodeKey 0 0 0 0b01011111111 = .rxLenOver 255 := by decide
theorem test_key_rxLenZero : decodeKey 0 0 0 0b01000000000 = .rxLenZero := by decide
theorem test_key_rxLenData :
    decodeKey 0 0 0 0b01001000000 = .rxLenData 64 ∧ decodeKey 0 0 0 0b01000000001 = .rxLenData 1 := by decide
theorem test_key_rxDataMore : decodeKey 62 64 0 0b01110101010 = .rxDataMore 0xAA := by decide
theorem test_key_rxDataLast : decodeKey 63 64 0 0b01100000001 = .rxDataLast 0x01 := by decide
theorem test_key_rxCsumOk : decodeKey 0 0 0xB1 0b10010110001 = .rxCsumOk 0xB1 := by decide
theorem test_key_rxCsumBad : decodeKey 0 0 0xB1 0b10010110000 = .rxCsumBad 0xB0 := by decide

/-! ## Frames written out: S1 to S3, X1 to X9, V-series, T1 to T3 -/

/-- S2. -/
theorem test_frame_motorSetSpeed :
    decodeFrame P .toDevice [0xAA, 0x01, 0x02, 0x32, 0xCE, 0x03, 0x55] = .ok (.motorSetSpeed [0x32, 0xCE], [0x55]) := by
  decide
/-- S1. -/
theorem test_frame_motorStop : decodeFrame P .toDevice [0xAA, 0x02, 0x00, 0x02, 0x55] = .ok (.motorStop [], [0x55]) := by
  decide
/-- R119. -/
theorem test_frame_motorEstop : decodeFrame P .toDevice [0xAA, 0x03, 0x00, 0x03, 0x55] = .ok (.motorEstop [], [0x55]) := by
  decide
/-- X9. -/
theorem test_frame_imuReq :
    decodeFrame P .toDevice [0xAA, 0x10, 0x05, 0x00, 0x00, 0x00, 0x00, 0x00, 0x15, 0x55] =
      .ok (.imuReq [0, 0, 0, 0, 0], [0x55]) := by decide
/-- R121. -/
theorem test_frame_ultrasonicReq :
    decodeFrame P .toDevice [0xAA, 0x11, 0x00, 0x11, 0x55] = .ok (.ultrasonicReq [], [0x55]) := by decide
/-- R122. -/
theorem test_frame_allSensorsReq :
    decodeFrame P .toDevice [0xAA, 0x12, 0x00, 0x12, 0x55] = .ok (.allSensorsReq [], [0x55]) := by decide
/-- X4. -/
theorem test_frame_ledControl :
    decodeFrame P .toDevice [0xAA, 0x20, 0x01, 0x01, 0x22, 0x55] = .ok (.ledControl [0x01], [0x55]) := by decide
/-- X6. -/
theorem test_frame_buzzerControl :
    decodeFrame P .toDevice [0xAA, 0x21, 0x01, 0x00, 0x22, 0x55] = .ok (.buzzerControl [0x00], [0x55]) := by decide
/-- Program 3. -/
theorem test_frame_statusReq : decodeFrame P .toDevice [0xAA, 0x22, 0x00, 0x22, 0x55] = .ok (.statusReq [], [0x55]) := by
  decide
/-- X8. -/
theorem test_frame_resetCommand :
    decodeFrame P .toDevice [0xAA, 0x23, 0x00, 0x23, 0x55] = .ok (.resetCommand [], [0x55]) := by decide
/-- S3 and X7. -/
theorem test_frame_unknown :
    decodeFrame P .toDevice [0xAA, 0xFF, 0x00, 0xFF, 0x55] = .ok (.unknown 0xFF [], [0x55]) ∧
    decodeFrame P .toDevice [0xAA, 0xA0, 0x00, 0xA0, 0x55] = .ok (.unknown 0xA0 [], [0x55]) := by decide
/-- E1. -/
theorem test_frame_ack : decodeFrame P .toHost [0xAA, 0xA0, 0x00, 0xA0, 0x55] = .ok (.ack, [0x55]) := by decide
/-- E2. -/
theorem test_frame_nack : decodeFrame P .toHost [0xAA, 0xA1, 0x00, 0xA1, 0x55] = .ok (.nack, [0x55]) := by decide
/-- T3. -/
theorem test_frame_imuData :
    decodeFrame P .toHost
      ([0xAA, 0xB0, 0x30, 0x00, 0x00, 0x00, 0x00, 0x00, 0x00, 0x00, 0x00, 0x00, 0x00, 0x80, 0x3F,
        0x00, 0x00, 0x00, 0x3F, 0x00, 0x00, 0x00, 0xBF, 0x00, 0x00, 0x80, 0x3E] ++
       [0x00, 0x00, 0x20, 0x41, 0x00, 0x00, 0xA0, 0x41, 0x00, 0x00, 0xF0, 0xC1,
        0x00, 0x00, 0xC0, 0x3F, 0x00, 0x00, 0x20, 0xC0, 0x00, 0x00, 0xB4, 0x42, 0x23, 0x55]) =
      .ok (.imuData
        { accelX := 0, accelY := 0, accelZ := 0x3F800000
          gyroX := 0x3F000000, gyroY := 0xBF000000, gyroZ := 0x3E800000
          magX := 0x41200000, magY := 0x41A00000, magZ := 0xC1F00000
          roll := 0x3FC00000, pitch := 0xC0200000, yaw := 0x42B40000 }, [0x55]) := by decide
/-- T1; the first distance is the sentinel "no echo" of R59. -/
theorem test_frame_ultrasonicData :
    decodeFrame P .toHost [0xAA, 0xB1, 0x10, 0x00, 0x00, 0xC8, 0x43, 0x00, 0x00, 0xCC, 0x41, 0x00, 0x00, 0x20, 0x41,
        0x00, 0x00, 0xC8, 0x43, 0x45, 0x55] =
      .ok (.ultrasonicData { front := ultrasonicNoEcho, rear := 0x41CC0000, left := 0x41200000, right := 0x43C80000 },
        [0x55]) := by decide
/-- T1b: the big-endian order. -/
theorem test_frame_big_endian :
    decodeFrame { P with byteOrder := .big } .toHost [0xAA, 0xB1, 0x10, 0x43, 0xC8, 0x00, 0x00, 0x41, 0xCC, 0x00, 0x00,
        0x41, 0x20, 0x00, 0x00, 0x43, 0xC8, 0x00, 0x00, 0x45, 0x55] =
      .ok (.ultrasonicData { front := 0x43C80000, rear := 0x41CC0000, left := 0x41200000, right := 0x43C80000 },
        [0x55]) := by decide
/-- R67: carried untyped. -/
theorem test_frame_allSensorsData :
    decodeFrame P .toHost [0xAA, 0xB2, 0x02, 0xAA, 0x55, 0xB3, 0x55] = .ok (.allSensorsData [0xAA, 0x55], [0x55]) := by
  decide
/-- T2. -/
theorem test_frame_systemStatus :
    decodeFrame P .toHost [0xAA, 0xB3, 0x0A, 0x10, 0x0E, 0x00, 0x00, 0x00, 0x00, 0xF0, 0x40, 0x19, 0x02, 0x26, 0x55] =
      .ok (.systemStatus { uptime := 3600, battery := 0x40F00000, cpuLoad := 25, errorCount := 2 }, [0x55]) := by decide
/-- V4, V5, V15: each rejected by its name. -/
theorem test_frame_rejects :
    decodeFrame P .toDevice [0xAA, 0x02, 0x00, 0x03, 0x55] = .error .badChecksum ∧
    decodeFrame P .toDevice [0xAA, 0x01, 0x41, 0x32, 0xCE, 0x03, 0x55] = .error .overLength ∧
    decodeFrame P .toDevice [0xAA, 0x01, 0x02, 0x32] = .error .truncated ∧
    decodeFrame P .toDevice [0x55] = .error .noStart ∧ decodeFrame P .toDevice [] = .error .empty ∧
    decodeFrame P .toHost [0xAA, 0xB0, 0x00, 0xB0, 0x55] = .error .notAResponse := by decide
/-- V8, V9b: the checksum wraps, and 0x55 is data inside a frame. -/
theorem test_frame_wraps :
    decodeFrame P .toDevice [0xAA, 0xFF, 0x02, 0xFF, 0xFF, 0xFF, 0x55] = .ok (.unknown 0xFF [0xFF, 0xFF], [0x55]) ∧
    decodeFrame P .toDevice [0xAA, 0x55, 0x01, 0x55, 0xAB, 0x55] = .ok (.unknown 0x55 [0x55], [0x55]) := by decide

/-! ## The encoder (E3, E4, E7, E8, E9) -/

theorem test_encode_E3 : encode P (.motorSetSpeed [0x32, 0xCE]) =
    some (.wire .toDevice [0xAA, 0x01, 0x02, 0x32, 0xCE, 0x03, 0x55]) := by decide
theorem test_wireFrame_vectors :
    wireFrame 0x05 [0xAA, 0x55, 0xAA] = [0xAA, 0x05, 0x03, 0xAA, 0x55, 0xAA, 0xB1, 0x55] ∧
    wireFrame 0xAA [] = [0xAA, 0xAA, 0x00, 0xAA, 0x55] ∧ wireFrame 0x00 [] = [0xAA, 0x00, 0x00, 0x00, 0x55] ∧
    wireFrame 0x80 [0x7F] = [0xAA, 0x80, 0x01, 0x7F, 0x00, 0x55] := by decide

/-! ## Table words, decoded and placed -/

theorem test_table_words :
    decodeTableWord 16 0x0AA = some .rxIdleStart ∧ decodeTableWord 16 0x100 = some (.rxCmd 0x00) ∧
    decodeTableWord 16 0x200 = some .rxLenZero ∧ decodeTableWord 24 0xAA0200 = some (.motorStop []) ∧
    decodeTableWord 24 0xAA0000 = some (.unknown 0x00 []) ∧ decodeTableWord 24 0xAAA000 = some .ack ∧
    decodeTableWord 24 0xAAA100 = some .nack ∧ decodeTableWord 24 0xAAB200 = some (.allSensorsData []) := by decide
theorem test_table_word_runs :
    nextOf (step (s0.withFetchWord 16 0x0AA)) = nextOf (exec .rxIdleStart s0) ∧
    nextOf (step (s0.withFetchWord 24 0xAAA100)) = nextOf (exec .nack s0) ∧
    nextOf (step (s0.withFetchWord 24 0xAA2300)) = nextOf (exec (.resetCommand []) s0) := by decide

/-! ## Receiver operations -/

theorem test_rxIdleStart : rxAfter .rxIdleStart s0 = some ({ Rx.reset with state := .cmd }, []) := by decide
theorem test_rxIdleSkip : rxAfter (.rxIdleSkip 0x55) s0 = some (Rx.reset, []) := by decide
/-- V9: a second START is the command. -/
theorem test_rxCmd :
    rxAfter (.rxCmd 0xAA) (withR .cmd 0 0 0 0 []) =
      some ({ Rx.reset with state := .length, cmd := 0xAA, acc := 0xAA }, []) := by decide
/-- V5. -/
theorem test_rxLenOver :
    rxAfter (.rxLenOver 0x41) (withR .length 1 0 0 1 []) =
      some ({ Rx.reset with cmd := 1, len := 0x41, acc := 1 }, []) := by decide
/-- Program 2, byte 18: `rx_idx` keeps its stale 2. -/
theorem test_rxLenZero :
    rxAfter .rxLenZero (withR .length 0x20 2 2 0x20 [(0, 0x32)]) =
      some ({ Rx.reset with state := .checksum, cmd := 0x20, len := 0, idx := 2, acc := 0x20, buf := [(0, 0x32)] }, []) := by
  decide
/-- S2, byte 2; then a sum that wraps (V8). -/
theorem test_rxLenData :
    rxAfter (.rxLenData 2) (withR .length 1 0 7 1 []) =
      some ({ Rx.reset with state := .data, cmd := 1, len := 2, idx := 0, acc := 3 }, []) ∧
    rxAfter (.rxLenData 2) (withR .length 0xFF 0 0 0xFF []) =
      some ({ Rx.reset with state := .data, cmd := 0xFF, len := 2, acc := 0x01 }, []) := by decide
/-- S2, byte 3; storing 0 takes the cell from the list. -/
theorem test_rxDataMore :
    rxAfter (.rxDataMore 0x32) (withR .data 1 2 0 3 []) =
      some ({ Rx.reset with state := .data, cmd := 1, len := 2, idx := 1, acc := 0x35, buf := [(0, 0x32)] }, []) ∧
    rxAfter (.rxDataMore 0x00) (withR .data 1 2 0 3 [(0, 0x32), (5, 1)]) =
      some ({ Rx.reset with state := .data, cmd := 1, len := 2, idx := 1, acc := 3, buf := [(5, 1)] }, []) := by decide
/-- S2, byte 4; V6: cell 63 is the last. -/
theorem test_rxDataLast :
    rxAfter (.rxDataLast 0xCE) (withR .data 1 2 1 0x35 [(0, 0x32)]) =
      some ({ Rx.reset with state := .checksum, cmd := 1, len := 2, idx := 2, acc := 3, buf := [(0, 0x32), (1, 0xCE)] }, []) ∧
    rxAfter (.rxDataLast 0x01) (withR .data 0x10 64 63 0x8F []) =
      some ({ Rx.reset with state := .checksum, cmd := 0x10, len := 64, idx := 64, acc := 0x90, buf := [(63, 1)] }, []) := by
  decide
/-- S2, byte 5. -/
theorem test_rxCsumOk :
    (nextOf (exec (.rxCsumOk 3) (withR .checksum 1 2 2 3 [(0, 0x32), (1, 0xCE)]))).map
        (fun t => (t.rx.state, t.rx.csum, t.framesOut, t.handlerCalls, t.txStream)) =
      some (.idle, 3, [{ cmd := 1, len := 2, payload := [0x32, 0xCE], csum := 3 }], [.setMotorSpeed 50 (-50)], ackBytes) := by
  decide
/-- V4. -/
theorem test_rxCsumBad :
    (nextOf (exec (.rxCsumBad 3) (withR .checksum 2 0 0 2 []))).map
        (fun t => (t.rx.state, t.rx.csum, t.framesOut, t.handlerCalls, t.txStream)) =
      some (.idle, 3, [], [], nackBytes) := by decide
/-- V15 and V19 as streams: the events. -/
theorem test_rxFeed_V15 : (rxFeed Rx.reset [0xAA, 0x01, 0x02, 0x32, 0xAA, 0x02, 0x00, 0x02, 0x55]).2 = [.nackOut] := by decide
theorem test_rxFeed_V19 : (rxFeed Rx.reset [0xAA, 0x01, 0xAA, 0x02, 0x00, 0x02]).2 = [] := by decide

/-! ## Checksum operations (K3, K5, K7, K8) -/

theorem test_csumFn :
    (nextOf (exec (.csumFn 0x01 0x02 [0x32, 0xCE]) s0)).map (·.fnResult) = some (.byte 0x03) ∧
    (nextOf (exec (.csumFn 0x80 0x01 [0x7F]) s0)).map (·.fnResult) = some (.byte 0x00) := by decide
theorem test_csumFn_largest : checksum 0xFF 64 (List.replicate 64 0xFF) = 0xFF ∧ checksum 0xFF 2 [0xFF, 0xFF] = 0xFF := by
  decide
theorem test_csumAcc :
    (nextOf (exec (.csumAcc .rx .add 0xFF) (withR .data 0 0 0 2 []))).map (·.rx.acc) = some 0x01 ∧
    (nextOf (exec (.csumAcc .tx .load 0xA0) s0)).map (·.tx.acc) = some 0xA0 := by decide
theorem test_csumCmp :
    (nextOf (exec (.csumCmp 0x83 0x03) s0)).map (·.fnResult) = some (.bit false) ∧
    (nextOf (exec (.csumCmp 0x03 0x03) s0)).map (·.fnResult) = some (.bit true) := by decide

/-! ## Encoder operations -/

/-- E4, E5. -/
theorem test_txSend :
    txAfter (.txSend 0x05 [0xAA, 0x55, 0xAA]) s0 = some (Tx.reset,
      [.tx 0xAA, .tx 0x05, .tx 0x03, .tx 0xAA, .tx 0x55, .tx 0xAA, .tx 0xB1, .tx 0x55, .sendResult true]) ∧
    (nextOf (exec (.txSend 0x10 p64) s0)).map (·.txStream) =
      some ([0xAA, 0x10, 0x40] ++ List.replicate 64 0x01 ++ [0x90, 0x55]) := by decide
/-- E6. -/
theorem test_txSendRefuse : txAfter (.txSendRefuse 0xB0 p65) s0 = some (Tx.reset, [.sendResult false]) := by decide
theorem test_txAck : seenAfter .txAck s0 = some ([], ackBytes) := by decide
theorem test_txNack : seenAfter .txNack s0 = some ([], nackBytes) := by decide
theorem test_txByteStart :
    txAfter .txByteStart (withT .start 0x80 1 0 9 [0x7F]) =
      some ({ state := .cmd, cmd := 0x80, len := 1, idx := 0, acc := 9, payload := [0x7F] }, [.tx 0xAA]) := by decide
theorem test_txByteCmd :
    txAfter .txByteCmd (withT .cmd 0x80 1 0 9 [0x7F]) =
      some ({ state := .len, cmd := 0x80, len := 1, idx := 0, acc := 0x80, payload := [0x7F] }, [.tx 0x80]) := by decide
theorem test_txByteLen :
    txAfter .txByteLen (withT .len 0x80 1 0 0x80 [0x7F]) =
      some ({ state := .data, cmd := 0x80, len := 1, idx := 0, acc := 0x81, payload := [0x7F] }, [.tx 1]) ∧
    (txAfter .txByteLen (withT .len 0xA0 0 0 0xA0 [])).map (·.1.state) = some .csum := by decide
theorem test_txByteData :
    txAfter .txByteData (withT .data 0x80 1 0 0x81 [0x7F]) =
      some ({ state := .csum, cmd := 0x80, len := 1, idx := 1, acc := 0x00, payload := [0x7F] }, [.tx 0x7F]) ∧
    txAfter .txByteData (withT .data 0x01 2 0 0x03 [0x32, 0xCE]) =
      some ({ state := .data, cmd := 0x01, len := 2, idx := 1, acc := 0x35, payload := [0x32, 0xCE] }, [.tx 0x32]) := by
  decide
theorem test_txByteCsum :
    txAfter .txByteCsum (withT .csum 0x01 2 2 0x03 [0x32, 0xCE]) =
      some ({ state := .fin, cmd := 0x01, len := 2, idx := 2, acc := 0x03, payload := [0x32, 0xCE] }, [.tx 0x03]) := by decide
theorem test_txByteEnd :
    (txAfter .txByteEnd (withT .fin 0x01 2 2 0x03 [0x32, 0xCE])).map (fun r => (r.1.state, r.2)) =
      some (.idle, [.tx 0x55, .sendResult true]) := by decide
/-- R106: the sink takes no byte, so the step does nothing. -/
theorem test_sink_stall :
    nextOf (step ((withT .data 0x01 2 0 0x03 [0x32, 0xCE]).withSink false)) =
      some ((withT .data 0x01 2 0 0x03 [0x32, 0xCE]).withSink false) := by decide

/-- R166, D12: nor does the receiver take a byte meanwhile; the reset input still comes through. -/
theorem test_sink_stall_holds_receiver :
    nextOf (step (((withT .data 0x01 2 0 0x03 [0x32, 0xCE]).withSink false).withInputs [.rx 0xAA])) =
      some (((withT .data 0x01 2 0 0x03 [0x32, 0xCE]).withSink false).withInputs [.rx 0xAA]) ∧
    nextOf (step (((withT .data 0x01 2 0 0x03 [0x32, 0xCE]).withSink false).withInputs [.reset])) =
      some (q0.withSink false) := by decide

/-! ## Reset -/

/-- R162: a frame partly received and one partly written are forgotten; the byte already sent stays sent. -/
theorem test_resetAssert :
    nextOf (exec .resetAssert (((withT .len 0x80 1 0 0x80 [0x7F]).withRx { Rx.reset with state := .data, len := 2 }).emit
      [.tx 0xAA])) = some (q0.emit [.tx 0xAA]) := by decide

/-! ## Command frames -/

/-- S2; X1. -/
theorem test_motorSetSpeed :
    seenAfter (.motorSetSpeed [0x32, 0xCE]) s0 = some ([.setMotorSpeed 50 (-50)], ackBytes) ∧
    seenAfter (.motorSetSpeed []) s0 = some ([], nackBytes) := by decide
/-- R117: no range check. -/
theorem test_motorSetSpeed_extremes :
    seenAfter (.motorSetSpeed [0x80, 0x7F]) s0 = some ([.setMotorSpeed (-128) 127], ackBytes) ∧
    seenAfter (.motorSetSpeed [1, 2, 3]) s0 = some ([], nackBytes) := by decide
/-- X3. -/
theorem test_motorStop : seenAfter (.motorStop [1, 2, 3]) s0 = some ([.stop], ackBytes) := by decide
theorem test_motorEstop : seenAfter (.motorEstop []) s0 = some ([.emergencyStop], ackBytes) := by decide
/-- X9, with a handler that sends nothing. -/
theorem test_imuReq : seenAfter (.imuReq [0, 0, 0, 0, 0]) s0 = some ([.requestImuSample], []) := by decide
theorem test_ultrasonicReq : seenAfter (.ultrasonicReq []) s0 = some ([.requestUltrasonicSample], []) := by decide
/-- R122, D18: IMU, the gap, ultrasonic, and no gap after the last. -/
theorem test_allSensorsReq :
    (nextOf (exec (.allSensorsReq []) s0)).map (·.trace) =
      some [.call .requestImuSample, .wait .settleGap, .call .requestUltrasonicSample] := by decide
/-- X4; X5. -/
theorem test_ledControl :
    seenAfter (.ledControl [1]) s0 = some ([.setIndicatorState 1], ackBytes) ∧
    seenAfter (.ledControl []) s0 = some ([], nackBytes) := by decide
/-- X6. -/
theorem test_buzzerControl :
    seenAfter (.buzzerControl [0]) s0 = some ([.setAudibleAlertState 0], ackBytes) ∧
    seenAfter (.buzzerControl [0, 0]) s0 = some ([], nackBytes) := by decide
/-- Program 3, byte 7: the handler sends T2. -/
theorem test_statusReq :
    seenAfter (.statusReq []) (s0.withHandlers
      [{ sends := [.response (.systemStatus { uptime := 3600, battery := 0x40F00000, cpuLoad := 25, errorCount := 2 })]
         returns := true }]) =
      some ([.requestSystemStatus],
        [0xAA, 0xB3, 0x0A, 0x10, 0x0E, 0x00, 0x00, 0x00, 0x00, 0xF0, 0x40, 0x19, 0x02, 0x26, 0x55]) := by decide
/-- X8: ACK first, then the handler, and no byte is accepted afterwards. -/
theorem test_resetCommand :
    (nextOf (exec (.resetCommand []) s0)).map (fun t => (t.trace, rxReady t)) =
      some (ackObs ++ [.wait .flush, .call .reset], false) := by decide
/-- S3. -/
theorem test_unknown : seenAfter (.unknown 0xFF []) s0 = some ([], nackBytes) := by decide

/-! ## Response frames -/

theorem test_ack : seenAfter .ack s0 = some ([], ackBytes) := by decide
theorem test_nack : seenAfter .nack s0 = some ([], nackBytes) := by decide
/-- R58: the second field is accel y, at payload index 4. -/
theorem test_imuData :
    (nextOf (exec (.imuData
        { accelX := 1, accelY := 2, accelZ := 3, gyroX := 4, gyroY := 5, gyroZ := 6, magX := 7, magY := 8, magZ := 9
          roll := 10, pitch := 11, yaw := 12 }) s0)).map (fun t => (t.txStream.take 9, t.txStream.length)) =
      some ([0xAA, 0xB0, 0x30, 1, 0, 0, 0, 2, 0], 53) := by decide
/-- T1. -/
theorem test_ultrasonicData :
    seenAfter (.ultrasonicData { front := 0x43C80000, rear := 0x41CC0000, left := 0x41200000, right := 0x43C80000 }) s0 =
      some ([], [0xAA, 0xB1, 0x10, 0x00, 0x00, 0xC8, 0x43, 0x00, 0x00, 0xCC, 0x41, 0x00, 0x00, 0x20, 0x41,
        0x00, 0x00, 0xC8, 0x43, 0x45, 0x55]) := by decide
theorem test_allSensorsData :
    seenAfter (.allSensorsData [0xAA, 0x55]) s0 = some ([], [0xAA, 0xB2, 0x02, 0xAA, 0x55, 0xB3, 0x55]) ∧
    seenAfter (.allSensorsData p65) s0 = some ([], []) := by decide
/-- T2 in the byte order of T1b. -/
theorem test_systemStatus_big :
    seenAfter (.systemStatus { uptime := 3600, battery := 0x40F00000, cpuLoad := 25, errorCount := 2 })
      { s0 with params := { P with byteOrder := .big } } =
      some ([], [0xAA, 0xB3, 0x0A, 0x00, 0x00, 0x0E, 0x10, 0x40, 0xF0, 0x00, 0x00, 0x19, 0x02, 0x26, 0x55]) := by decide

/-! ## Witnesses: for every statement with hypotheses, operands and states that meet them

A case of each clause at a boundary value of its range. -/

/-- A frame at the FRAME port, and one of the largest size. -/
abbrev f0 : Frame := { cmd := 0x02, len := 0, payload := [], csum := 0x02 }
abbrev f64 : Frame := { cmd := 0x02, len := 64, payload := p64, csum := 0x82 }
/-- Data with two declared bytes, one stored; the same before the checksum byte. -/
abbrev rData : State := withR .data 1 2 1 0x35 [(0, 0x32)]
abbrev rCsum : State := withR .checksum 1 2 2 0x03 [(0, 0x32), (1, 0xCE)]
/-- The largest frame before its last payload byte. -/
abbrev rFull : State := withR .data 0 64 63 0x40 []
/-- A dispatch that never returns is in progress. -/
abbrev h0 : State := s0.withHung true
/-- An outside request's frame is half written and the sink takes no byte. -/
abbrev stuck : State := (withT .data 0x01 2 0 0x03 [0x32, 0xCE]).withSink false
/-- The next handler call never returns. -/
abbrev never : HandlerRun := { sends := [], returns := false }
abbrev once : HandlerRun := { sends := [.ack], returns := true }
abbrev n0 : State := s0.withHandlers [never]

theorem witness_FrameDecodesFromItsEncoding :
    P.wf ∧ WellFormed P (.motorStop p64) = true ∧ WellFormed P (.unknown 0xAA []) = true ∧
    encode P (.motorStop p64) = some (.wire .toDevice ([0xAA, 0x02, 0x40] ++ p64 ++ [0x82, 0x55])) ∧
    encode P (.unknown 0xAA []) = some (.wire .toDevice [0xAA, 0xAA, 0x00, 0xAA, 0x55]) ∧
    encode P .nack = some (.wire .toHost [0xAA, 0xA1, 0x00, 0xA1, 0x55]) := by decide
theorem witness_KeyDecodesFromItsEncoding :
    WellFormed P (.rxDataMore 0xAA) = true ∧ selectedBy 62 64 0 (.rxDataMore 0xAA) = true ∧
    encode P (.rxDataMore 0xAA) = some (.key 0b01110101010) ∧
    WellFormed P (.rxDataLast 0) = true ∧ selectedBy 63 64 0 (.rxDataLast 0) = true ∧
    encode P (.rxDataLast 0) = some (.key 0b01100000000) ∧
    selectedBy 0 0 0xFF (.rxCsumOk 0xFF) = true ∧ encode P (.rxCsumOk 0xFF) = some (.key 0b10011111111) ∧
    selectedBy 0 0 0xFF (.rxCsumBad 0) = true ∧ encode P (.rxCsumBad 0) = some (.key 0b10000000000) ∧
    WellFormed P (.rxLenOver 65) = true ∧ encode P (.rxLenOver 65) = some (.key 0b01001000001) ∧
    WellFormed P (.rxLenData 64) = true ∧ encode P (.rxLenData 64) = some (.key 0b01001000000) := by decide
theorem witness_EveryKeySelectsOneWellFormedOperation : ((0b10011111111 : BitVec 11).extractLsb' 8 3).toNat < 5 := by decide
theorem witness_StrayStateCodesActAsIdle : 5 ≤ (5 : BitVec 3).toNat ∧ 5 ≤ (7 : BitVec 3).toNat := by decide
theorem witness_CommandByteSelectsCommand : P.wf ∧ (0xFF : Byte) ∉ P.commandCodes ∧ (0xA0 : Byte) ∉ P.commandCodes := by
  decide
theorem witness_StepRunsSelectedOperation :
    rxReady (s0.withInputs [.rx 0xAA]) = true ∧ sendReady (s0.withInputs [.send .ack]) = true ∧
    sendReady (h0.withInputs [.send .ack]) = true ∧
    (q0.withFrame (some f0)).inputs = [] ∧ (q0.withFrame (some f0)).frame = some f0 ∧
    (withT .fin 1 0 0 1 []).inputs = [] ∧ (withT .fin 1 0 0 1 []).frame = none ∧
    (withT .fin 1 0 0 1 []).sinkReady = true ∧ txInstr (withT .fin 1 0 0 1 []).tx.state = some .txByteEnd ∧
    (q0.withAgenda [.send .nack, .done]).inputs = [] ∧ (q0.withAgenda [.send .nack, .done]).frame = none ∧
    (q0.withAgenda [.send .nack, .done]).tx.state = .idle ∧
    (q0.withAgenda [.send .nack, .done]).agenda = .send .nack :: [.done] := by decide
theorem witness_FrameAtPortRunsAsDecoded :
    (q0.withFrame (some f64)).inputs = [] ∧ (q0.withFrame (some f64)).frame = some f64 ∧ f64.payload.length ≤ maxPayload ∧
    decodeFrame q0.params .toDevice (wireFrame f64.cmd f64.payload) = .ok (.motorStop p64, [0x55]) := by decide
theorem witness_SelectionIsThatOfTheStepFunction :
    RxInv Rx.reset ∧ RxInv (withR .cmd 0 0xFF 64 7 []).rx ∧ RxInv (withR .length 0xFF 0 0 0xFF []).rx ∧
    RxInv rData.rx ∧ RxInv rFull.rx ∧ RxInv rCsum.rx ∧ RxInv (withR .checksum 0xFF 0 9 0xFF []).rx :=
  ⟨by decide, by decide, by decide, by decide, by decide, by decide, by decide⟩
theorem witness_AcceptedByteAppliesStepFunction :
    rxReady (rData.withInputs [.rx 0xCE]) = true ∧ (rxStep rData.rx 0xCE).2 = .noEvent ∧
    rxReady (rCsum.withInputs [.rx 3, .tick]) = true ∧
    (rxStep rCsum.rx 3).2 = .frameOut { cmd := 1, len := 2, payload := [0x32, 0xCE], csum := 3 } ∧
    (rxStep rCsum.rx 4).2 = .nackOut := by decide
theorem witness_PlacedTableWordRunsNext :
    h0.params = P ∧ decodeTableWord 16 0x4FF = some (.rxCsumBad 0xFF) ∧ decodeTableWord 16 0 = some (.rxIdleSkip 0) ∧
    decodeTableWord 24 0xAA0240 = some (.motorStop (List.replicate 64 0)) ∧ decodeTableWord 24 0xAAA000 = some .ack := by
  decide
theorem witness_IdleOpensFrameOrDiscards : s0.rx.state = .idle := by decide
theorem witness_CommandByteIsStored : (withR .cmd 0 0 0 0 []).rx.state = .cmd := by decide
theorem witness_OversizeLengthDropsSilently :
    (withR .length 1 0 0 1 []).rx.state = .length ∧ 64 < (65 : Byte).toNat ∧ 64 < (255 : Byte).toNat := by decide
theorem witness_ZeroLengthSkipsPayload : (withR .length 1 0 0 1 []).rx.state = .length := by decide
theorem witness_LengthByteStartsPayload :
    (withR .length 1 0 0 1 []).rx.state = .length ∧ 1 ≤ (1 : Byte).toNat ∧ (1 : Byte).toNat ≤ 64 ∧
    1 ≤ (64 : Byte).toNat ∧ (64 : Byte).toNat ≤ 64 := by decide
theorem witness_DataByteIsStoredAtIndex :
    rFull.rx.buf.wf = true ∧ rFull.rx.idx.toNat < 64 ∧ rFull.rx.state = .data ∧ ¬ rFull.rx.idx.toNat + 1 < rFull.rx.len.toNat ∧
    (withR .data 0 64 62 0 []).rx.buf.wf = true ∧ (withR .data 0 64 62 0 []).rx.idx.toNat + 1 < 64 := by decide
theorem witness_WriteAboveSixtyThreeIsNoWrite :
    64 ≤ (withR .data 0 64 64 0 []).rx.idx.toNat ∧ 64 ≤ (withR .data 0 64 255 0 []).rx.idx.toNat := by decide
theorem witness_MatchingChecksumDeliversFrame :
    atomic rCsum = true ∧ RxInv rCsum.rx ∧ rCsum.rx.state = .checksum ∧
    (3 : Byte) = checksum rCsum.rx.cmd rCsum.rx.len ((List.range rCsum.rx.len.toNat).map (readCell rCsum.rx.buf)) := by decide
theorem witness_WrongChecksumSendsOneNack :
    atomic rCsum = true ∧ RxInv rCsum.rx ∧ rCsum.rx.state = .checksum ∧
    (4 : Byte) ≠ checksum rCsum.rx.cmd rCsum.rx.len ((List.range rCsum.rx.len.toNat).map (readCell rCsum.rx.buf)) := by decide
theorem witness_ReceiverOperationsFrame :
    rFull.rx.buf.wf = true ∧ ∃ t u v, exec (.rxDataLast 1) rFull = .next t ∧ exec (.rxDataMore 1) rFull = .next u ∧
      exec (.rxLenOver 65) rFull = .next v :=
  ⟨by decide, _, _, _, rfl, rfl, rfl⟩
theorem witness_OtherOperationsFrame :
    writesRx (.motorStop []) = false ∧ writesRx .txByteData = false ∧ writesRx (.csumAcc .tx .add 1) = false ∧
    (∃ t, exec (.motorStop []) rData = .next t) ∧ (∃ t, exec .txByteData (withT .data 1 1 0 2 [0]) = .next t) ∧
    ∃ t, exec (.csumAcc .tx .add 1) h0 = .next t :=
  ⟨by decide, by decide, by decide, ⟨_, rfl⟩, ⟨_, rfl⟩, ⟨_, rfl⟩⟩
theorem witness_ReceptionOfEncodedFrame :
    rCsum.rx.buf.wf = true ∧ { rCsum.rx with state := RxState.idle }.state = .idle ∧ p64.length ≤ 64 ∧
    ([] : List Byte).length ≤ 64 := by decide
theorem witness_ReturnToIdleTakesDeclaredLength :
    (withR .cmd 0 0 0 0 []).rx.state = .cmd ∧ 64 < (65 : Byte).toNat ∧ (64 : Byte).toNat ≤ 64 ∧
    p65.length = (64 : Byte).toNat + 1 ∧ [(7 : Byte)].length = (0 : Byte).toNat + 1 := by decide
theorem witness_IdleWithinSixtySevenBytes :
    RxInv (withR .cmd 0 0 0 0 []).rx ∧ (0x00 :: 0x40 :: p65).length = 67 := by decide
theorem witness_IdleWithinSixtySixBytes : RxInv (withR .cmd 0 0 0 0 []).rx ∧ (0x00 :: 0x40 :: p64).length = 66 := by decide
theorem witness_AtMostOneEventPerFourBytes : Rx.reset.state = .idle := by decide
theorem witness_EventsDependOnBytesSinceIdle :
    Rx.reset.buf.wf = true ∧ rCsum.rx.buf.wf = true ∧ Rx.reset.state = .idle ∧
    { rCsum.rx with state := RxState.idle }.state = .idle := by decide
theorem witness_EndByteIsNotInspected :
    rCsum.rx.buf.wf = true ∧ { rCsum.rx with state := RxState.idle }.state = .idle ∧ Rx.reset.state = .idle ∧
    p64.length ≤ 64 := by decide
theorem witness_StepKeepsInvariant :
    Inv (rCsum.withInputs [.rx 3]) ∧ Inv (q0.withFrame (some f64)) ∧ Inv (withT .data 1 2 1 0x35 [0x32, 0xCE]) ∧ Inv h0 ∧
    (∃ t, step (rCsum.withInputs [.rx 3]) = .next t) ∧ (∃ t, step (q0.withFrame (some f64)) = .next t) ∧
    (∃ t, step (withT .data 1 2 1 0x35 [0x32, 0xCE]) = .next t) ∧ ∃ t, step h0 = .next t :=
  ⟨by decide, by decide, by decide, by decide, ⟨_, rfl⟩, ⟨_, rfl⟩, ⟨_, rfl⟩, ⟨_, rfl⟩⟩
theorem witness_ReceiverChangesOnlyByByteOrReset :
    (∃ t, step s0 = .next t) ∧ (∃ t, step (rCsum.withInputs [.rx 3]) = .next t) ∧
    ∃ t, step (rCsum.withInputs [.reset]) = .next t :=
  ⟨⟨_, rfl⟩, ⟨_, rfl⟩, ⟨_, rfl⟩⟩
theorem witness_StepKeepsParametersAndOutputs : ∃ t, step (h0.withInputs [.reset]) = .next t := ⟨_, rfl⟩
theorem witness_StalledReceiverTakesNoByte :
    h0.hung = true ∧ (q0.withFrame (some f0)).frame ≠ none ∧ (q0.withAgenda [.done]).agenda ≠ [] ∧
    (∀ rest, (stuck.withInputs [.rx 0xAA]).inputs ≠ .reset :: rest) ∧ (∃ t, step (stuck.withInputs [.rx 0xAA]) = .next t) ∧
    stuck.frame = none ∧ stuck.tx.state ≠ .idle ∧ stuck.sinkReady = false ∧
    ∀ ready rest, (stuck.withInputs [.rx 0xAA]).inputs ≠ .sink ready :: rest :=
  ⟨by decide, by decide, by decide, by simp, ⟨_, rfl⟩, by decide, by decide, by decide, by simp⟩
theorem witness_HungDispatchLastsUntilReset :
    h0.hung = true ∧ (∃ t, step (h0.withInputs [.rx 0xAA]) = .next t) ∧
    (∀ rest, (h0.withInputs [.rx 0xAA]).inputs ≠ .reset :: rest) ∧ (∃ t, step (h0.withInputs [.reset]) = .next t) ∧
    ∃ rest, (h0.withInputs [.reset]).inputs = .reset :: rest :=
  ⟨by decide, ⟨_, rfl⟩, by simp, ⟨_, rfl⟩, _, rfl⟩
theorem witness_NothingOfferedChangesNothing :
    s0.inputs = [] ∧ s0.frame = none ∧ s0.tx.state = .idle ∧ s0.agenda = [] ∧
    ((withT .data 1 1 0 2 [0]).withSink false).inputs = [] ∧ ((withT .data 1 1 0 2 [0]).withSink false).frame = none ∧
    ((withT .data 1 1 0 2 [0]).withSink false).tx.state ≠ .idle ∧
    ((withT .data 1 1 0 2 [0]).withSink false).sinkReady = false := by decide
theorem witness_ErrorOutcomesSendOneNackOrNothing :
    atomic s0 = true ∧ raises (.rxLenOver 65) = some .framingDrop ∧ raises (.rxCsumBad 0) = some .checksumMismatch ∧
    raises (.unknown 0xFF []) = some .unknownCommand ∧ raises (.motorSetSpeed [1]) = some .wrongArity ∧
    raises (.ledControl []) = some .wrongArity ∧ raises (.txSendRefuse 0 p65) = some .sendRefused := by decide
theorem witness_ChecksumPropertiesHold :
    ([0x32, 0xCE] : List Byte).Perm [0xCE, 0x32] ∧ checksum 1 2 [0x32, 0xCE] = checksum 1 2 [0x32, 0xCE] :=
  ⟨List.Perm.swap _ _ _, rfl⟩
theorem witness_SendWritesWholeFrame : p64.length ≤ 64 ∧ ([] : List Byte).length ≤ 64 ∧ atomic s0 = true := by decide
theorem witness_OversizeSendIsRefused : 64 < p65.length := by decide
theorem witness_SerialEncoderAcceptsOrHolds :
    p64.length ≤ 64 ∧ atomic q0 = false ∧ q0.tx.state = .idle ∧ atomic (s0.withSink false) = false ∧
    (s0.withSink false).tx.state = .idle ∧ atomic (withT .fin 1 0 0 1 []) = false ∧
    (withT .fin 1 0 0 1 []).tx.state ≠ .idle := by decide
theorem witness_AckAndNackAreZeroPayloadFrames :
    (0xA1 : Byte) = s0.params.nackCode ∧ atomic s0 = true ∧ (0xA1 : Byte) = q0.params.nackCode := by decide
theorem witness_ByteSerialSteps :
    (withT .data 1 64 63 0 p64).tx.payload[(withT .data 1 64 63 0 p64).tx.idx.toNat]? = some 0x01 := by decide
theorem witness_ByteSerialEncoderWritesTheFrame :
    p64.length ≤ 64 ∧ atomic q0 = false ∧ q0.sinkReady = true ∧ q0.tx.state = .idle ∧ q0.inputs = [] ∧ q0.frame = none ∧
    ∃ t, exec (.txSend 0x10 p64) q0 = .next t :=
  ⟨by decide, by decide, by decide, by decide, by decide, by decide, _, rfl⟩
theorem witness_ResponseFramesCarryTheirRecords :
    (∀ w, bytesOfWord .little w = if s0.params.byteOrder = .little then
        [w.extractLsb' 0 8, w.extractLsb' 8 8, w.extractLsb' 16 8, w.extractLsb' 24 8]
      else [w.extractLsb' 24 8, w.extractLsb' 16 8, w.extractLsb' 8 8, w.extractLsb' 0 8]) ∧
    atomic s0 = true ∧ p64.length ≤ 64 :=
  ⟨fun _ => rfl, by decide, by decide⟩
theorem witness_StopCommandsCallThenAck :
    atomic s0 = true ∧ (nextRun s0).returns = true ∧ atomic (s0.withHandlers [once]) = true ∧
    (nextRun (s0.withHandlers [once])).returns = true := by decide
theorem witness_SetSpeedNeedsTwoSignedBytes :
    atomic s0 = true ∧ (nextRun s0).returns = true ∧ ([1] : List Byte).length ≠ 2 ∧ ([1, 2, 3] : List Byte).length ≠ 2 := by
  decide
theorem witness_SingleStateCommandsNeedOneByte :
    atomic s0 = true ∧ (nextRun s0).returns = true ∧ ([] : List Byte).length ≠ 1 ∧ ([1, 2] : List Byte).length ≠ 1 := by
  decide
theorem witness_QueriesOnlyCallTheirHandler :
    atomic (s0.withHandlers [once]) = true ∧ (nextRun (s0.withHandlers [once])).returns = true := by decide
theorem witness_AllSensorsCallsInSequence :
    atomic s0 = true ∧ (∀ e ∈ s0.handlers.take s0.params.allSensors.length, e.returns = true) ∧
    (∀ e ∈ [once, once, never].take s0.params.allSensors.length, e.returns = true) ∧
    (s0.withHandlers [once, never, once]).handlers = [once] ++ never :: [once] ∧ (∀ e ∈ [once], e.returns = true) ∧
    never.returns = false ∧ [once].length < s0.params.allSensors.length := by decide
theorem witness_ResetCommandAcksThenNeverReturns : atomic s0 = true := by decide
theorem witness_UnknownCommandSendsOneNack : atomic s0 = true ∧ (0xFF : Byte) ∉ s0.params.commandCodes := by decide
theorem witness_HandlerThatNeverReturnsHangsDispatch : atomic n0 = true ∧ (nextRun n0).returns = false := by decide
theorem witness_DispatchWaitsAtPortLevel :
    atomic q0 = false ∧ atomic (s0.withSink false) = false ∧ atomic (withT .fin 1 0 0 1 []) = false ∧
    ([] : List Byte).length ≠ 2 ∧ ([] : List Byte).length ≠ 1 := by decide

end Sys2Proof.Tests
end

section
namespace Sys2Proof.Proofs

open Machine

/-! ## Zero-payload sends (R66, R102, R103) -/

theorem checksum_zero_nil (c : Byte) : checksum c 0 [] = c := by
  simp [checksum, byteSum]

/-- The five bytes of a zero-payload frame: its CHECKSUM repeats its COMMAND (R66, R100). -/
theorem wireFrame_nil (c : Byte) : wireFrame c [] = [0xAA, c, 0x00, c, 0x55] := by
  have h : wireFrame c [] = [startByte, c, 0, checksum c 0 [], endByte] := rfl
  rw [h, checksum_zero_nil]
  rfl

/-- A zero-payload send is seen as its five bytes and success. -/
theorem sendObs_nil (c : Byte) : sendObs c [] = nackObs c := by
  simp [sendObs, nackObs, wireFrame_nil]

theorem nackObs_ackCode : nackObs 0xA0 = ackObs := rfl

theorem exec_txSend (c : Byte) (p : List Byte) (s : State) : exec (.txSend c p) s = .next (send c p s) := rfl

/-- TX.ACK is a zero-payload send of 0xA0 (R102). -/
theorem exec_txAck (s : State) : exec .txAck s = exec (.txSend 0xA0 []) s := rfl

/-- TX.NACK is a zero-payload send of NACK_CODE (R103). -/
theorem exec_txNack (s : State) : exec .txNack s = exec (.txSend s.params.nackCode []) s := rfl

/-- The ACK frame is what TX.ACK sends (R66, R102). -/
theorem exec_ack (s : State) : exec .ack s = exec (.txSend 0xA0 []) s := rfl

/-- The NACK frame is what TX.NACK sends (R66, R103). -/
theorem exec_nack (s : State) : exec .nack s = exec (.txSend s.params.nackCode []) s := rfl

/-- Where sends are one step, a zero-payload send writes its five bytes at once and succeeds (R100). -/
theorem exec_txSend_nil_of_atomic {s : State} (ha : atomic s = true) (c : Byte) :
    exec (.txSend c []) s = .next (s.emit (nackObs c)) := by
  rw [exec_txSend, send_of_atomic ha, sendObs_nil]

/-- Settles O48: the four operations are zero-payload sends, so the one lemma about those gives their bytes. -/
theorem ackAndNackAreZeroPayloadFrames : Obligations.AckAndNackAreZeroPayloadFrames := by
  rintro s n rfl
  refine ⟨exec_txAck s, exec_ack s, exec_txNack s, exec_nack s, fun ha => ?_⟩
  have hack : exec (.txSend 0xA0 []) s = .next (s.emit ackObs) := by
    rw [exec_txSend_nil_of_atomic ha, nackObs_ackCode]
  have hnack := exec_txSend_nil_of_atomic ha s.params.nackCode
  exact ⟨(exec_txAck s).trans hack, (exec_ack s).trans hack, (exec_txNack s).trans hnack, (exec_nack s).trans hnack⟩

end Sys2Proof.Proofs
end

section
namespace Sys2Proof.Proofs

open Machine

/-! ## The operation that a byte selects, state by state (R64, R70) -/

theorem receiveInstr_idle {r : Rx} (h : r.state = .idle) (b : Byte) :
    receiveInstr r b = if b = 0xAA then .rxIdleStart else .rxIdleSkip b := by
  rw [receiveInstr_eq, h]
  rfl

theorem receiveInstr_cmd {r : Rx} (h : r.state = .cmd) (b : Byte) : receiveInstr r b = .rxCmd b := by
  rw [receiveInstr_eq, h]
  rfl

theorem lenOver_iff (b : Byte) : lenOver b = true ↔ 64 < b.toNat := decide_eq_true_iff

theorem lenZero_iff (b : Byte) : lenZero b = true ↔ b = 0 := beq_iff_eq

theorem receiveInstr_length {r : Rx} (h : r.state = .length) (b : Byte) :
    receiveInstr r b = if 64 < b.toNat then .rxLenOver b else if b = 0 then .rxLenZero else .rxLenData b := by
  rw [receiveInstr_eq, h]
  simp only [selectReceive, lenOver_iff, lenZero_iff]

theorem receiveInstr_data {r : Rx} (h : r.state = .data) (b : Byte) :
    receiveInstr r b = if r.idx.toNat + 1 < r.len.toNat then .rxDataMore b else .rxDataLast b := by
  rw [receiveInstr_eq, h]
  simp [selectReceive, dataMore]

/-- Under the invariant the accumulator holds the computed sum, so the byte is compared with that (R79, R80, R92). -/
theorem receiveInstr_checksum {r : Rx} (hi : RxInv r) (h : r.state = .checksum) (b : Byte) :
    receiveInstr r b =
      if b = checksum r.cmd r.len (readPayload r.buf r.len.toNat) then .rxCsumOk b else .rxCsumBad b := by
  obtain ⟨-, -, -, hsum⟩ := hi
  rw [receiveInstr_eq, h, ← (hsum h).2]
  simp [selectReceive, csumMatch]

/-! ## Idle, Cmd and Length (R71 to R76) -/

/-- A byte discarded in Idle changes no register (R72). -/
theorem rxOnIdleSkip_of_idle {r : Rx} (h : r.state = .idle) : rxOnIdleSkip r = r := by
  rw [rxOnIdleSkip, ← h]

/-- Length 0 adds nothing to the accumulator (R75). -/
theorem rxOnLenZero_eq (r : Rx) : rxOnLenZero r = { r with len := 0, state := .checksum } := by
  simp [rxOnLenZero, accUpdate, accumulate]

/-- FramingDrop is the outcome of RX.LEN.OVER alone (R141). -/
theorem raises_framingDrop_iff (i : Instr) : raises i = some .framingDrop ↔ ∃ b, i = .rxLenOver b := by
  cases i with
  | rxLenOver b => exact iff_of_true rfl ⟨b, rfl⟩
  | _ => simp [raises]

/-- ChecksumMismatch is the outcome of RX.CSUM.BAD alone (R142). -/
theorem raises_checksumMismatch_iff (i : Instr) : raises i = some .checksumMismatch ↔ ∃ b, i = .rxCsumBad b := by
  cases i with
  | rxCsumBad b => exact iff_of_true rfl ⟨b, rfl⟩
  | _ => simp [raises]

/-- Settles O12: the selection in Idle, and each operation's register change. -/
theorem idleOpensFrameOrDiscards : Obligations.IdleOpensFrameOrDiscards := by
  intro s b
  have hskip (h : s.rx.state = .idle) : exec (.rxIdleSkip b) s = .next s :=
    congrArg (fun r => Host.Outcome.next (s.withRx r)) (rxOnIdleSkip_of_idle h)
  exact ⟨fun h => receiveInstr_idle h b, rfl, rfl, hskip⟩

/-- Settles O13: every byte in Cmd selects RX.CMD, whose load of the accumulator is the byte itself. -/
theorem commandByteIsStored : Obligations.CommandByteIsStored :=
  fun _ b => ⟨fun h => receiveInstr_cmd h b, rfl⟩

/-- Settles O14: the first branch of the selection in Length; the outcome is read off every operation. -/
theorem oversizeLengthDropsSilently : Obligations.OversizeLengthDropsSilently := by
  intro s b i
  exact ⟨fun h hb => by rw [receiveInstr_length h, if_pos hb], rfl, raises_framingDrop_iff i⟩

/-- Settles O15: adding the length 0 leaves the accumulator. -/
theorem zeroLengthSkipsPayload : Obligations.ZeroLengthSkipsPayload := by
  intro s
  exact ⟨fun h => receiveInstr_length h 0, congrArg (fun r => Host.Outcome.next (s.withRx r)) (rxOnLenZero_eq s.rx)⟩

/-- Settles O16: the last branch of the selection in Length. -/
theorem lengthByteStartsPayload : Obligations.LengthByteStartsPayload := by
  intro s b
  refine ⟨fun h h1 h64 => ?_, rfl⟩
  have hne : b ≠ 0 := by
    rintro rfl
    simp at h1
  rw [receiveInstr_length h, if_neg (by omega), if_neg hne]

/-! ## Data (R77, R78) -/

/-- The byte is read back at `rx_idx`, and every other cell reads as before. -/
theorem readCell_rxStore {r : Rx} (hw : r.buf.wf = true) (hi : r.idx.toNat < 64) (b : Byte) (a : Nat) :
    readCell (rxStore r b).buf a = if r.idx.toNat = a then b else readCell r.buf a := by
  have hmax : r.idx.toNat < maxPayload := hi
  simp [rxStore, readCell_writeBuf hw, hmax]

/-- Inside the buffer the index does not wrap. -/
theorem rxStore_idx_toNat {r : Rx} (hi : r.idx.toNat < 64) (b : Byte) :
    (rxStore r b).idx.toNat = r.idx.toNat + 1 := by
  exact BitVec.toNat_add_of_lt (y := 1#8) (Nat.lt_of_lt_of_le (Nat.succ_lt_succ hi) (by decide))

/-- Settles O17: both operations are the shared store and differ in the state they go to. -/
theorem dataByteIsStoredAtIndex : Obligations.DataByteIsStoredAtIndex := by
  intro s b hw hi
  refine ⟨fun h => receiveInstr_data h b, s.withRx (rxOnDataMore s.rx b), s.withRx (rxOnDataLast s.rx b), rfl, rfl,
    ?_, fun a ha => ?_, rxStore_idx_toNat hi b, rfl, rfl, rfl⟩
  · exact (readCell_rxStore hw hi b _).trans (if_pos rfl)
  · exact (readCell_rxStore hw hi b a).trans (if_neg ha.symm)

/-! ## Checksum (R79, R80) -/

/-- A command frame's operation is the dispatch of its command's actions (R116). -/
theorem exec_commandInstr (s : State) (c : Byte) (p : List Byte) :
    exec (commandInstr s.params c p) s = .next (dispatch (commandActions s.params (classify s.params c) p) s) := by
  unfold commandInstr
  cases classify s.params c <;> rfl

/-- Where sends are one step, a delivered frame is seen and then dispatched (R79, R85). -/
theorem deliver_of_atomic {s : State} (ha : atomic s = true) (f : Frame) :
    deliver f s =
      dispatch (commandActions s.params (classify s.params f.cmd) f.payload) (s.emit [.frameOut f]) := by
  obtain ⟨-, hd⟩ | ⟨hn, -⟩ := deliver_cases f s
  · rw [hd, dispatch_of_atomic ((atomic_emit s _).trans ha)]
  · simp [ha] at hn

/-- Where sends are one step, answering with a NACK is its five bytes and success (R80, R103, R130). -/
theorem dispatch_nackActions_of_atomic {s : State} (ha : atomic s = true) :
    dispatch nackActions s = s.emit (nackObs s.params.nackCode) := by
  rw [dispatch_of_atomic ha, ← sendObs_nil]
  exact sendRequest_of_atomic ha .nack

/-- Settles O19: the delivery is the command's operation on the state in which the frame has been seen, and a dispatch
keeps the receiver. -/
theorem matchingChecksumDeliversFrame : Obligations.MatchingChecksumDeliversFrame := by
  rintro s b f u ha rfl rfl
  refine ⟨fun hi h hb => ?_, ?_⟩
  · rw [receiveInstr_checksum hi h]
    exact if_pos hb
  · have hd := deliver_of_atomic ((atomic_withRx s (rxOnCsum s.rx b)).trans ha) (rxFrame s.rx b)
    have hkeeps := keeps_dispatch (commandActions s.params (classify s.params s.rx.cmd) (rxFrame s.rx b).payload)
      ((s.withRx (rxOnCsum s.rx b)).emit [.frameOut (rxFrame s.rx b)])
    exact ⟨_, congrArg Host.Outcome.next hd,
      exec_commandInstr ((s.withRx (rxOnCsum s.rx b)).emit [.frameOut (rxFrame s.rx b)]) _ _, hkeeps.rx, hkeeps.trace⟩

/-- Settles O20: RX.CSUM.BAD answers with a NACK where sends are one step. -/
theorem wrongChecksumSendsOneNack : Obligations.WrongChecksumSendsOneNack := by
  intro s b i ha
  refine ⟨fun hi h hb => ?_, ?_, raises_checksumMismatch_iff i⟩
  · rw [receiveInstr_checksum hi h]
    exact if_neg hb
  · have hn := dispatch_nackActions_of_atomic ((atomic_withRx s (rxOnCsum s.rx b)).trans ha)
    exact congrArg Host.Outcome.next hn

/-! ## END (R82) -/

/-- R70 in Idle: no event, and the byte decides only the state. -/
theorem rxStep_idle {r : Rx} (h : r.state = .idle) (b : Byte) :
    rxStep r b = ({ r with state := if b = 0xAA then .cmd else .idle }, .noEvent) := by
  have hstep : rxStep r b = if b = 0xAA then (rxOnIdleStart r, .noEvent) else (rxOnIdleSkip r, .noEvent) := by
    simp only [rxStep, h]
    rfl
  by_cases hb : b = 0xAA
  · rw [hstep, if_pos hb, if_pos hb]
    rfl
  · rw [hstep, if_neg hb, if_neg hb]
    rfl

theorem rxStep_cmd {r : Rx} (h : r.state = .cmd) (b : Byte) : rxStep r b = (rxOnCmd r b, .noEvent) := by
  simp [rxStep, h]

theorem rxStep_length_zero {r : Rx} (h : r.state = .length) : rxStep r 0 = (rxOnLenZero r, .noEvent) := by
  simp [rxStep, h]

theorem rxStep_length_data {r : Rx} (h : r.state = .length) {b : Byte} (h1 : 1 ≤ b.toNat) (h64 : b.toNat ≤ 64) :
    rxStep r b = (rxOnLenData r b, .noEvent) := by
  have hover : ¬ maxPayload < b.toNat := Nat.not_lt.mpr h64
  have hne : b ≠ 0 := by
    rintro rfl
    simp at h1
  simp only [rxStep, h, hover, hne, if_false]

theorem rxStep_data_more {r : Rx} (h : r.state = .data) (hl : r.idx.toNat + 1 < r.len.toNat) (b : Byte) :
    rxStep r b = (rxOnDataMore r b, .noEvent) := by
  simp [rxStep, h, hl]

theorem rxStep_data_last {r : Rx} (h : r.state = .data) (hl : r.len.toNat ≤ r.idx.toNat + 1) (b : Byte) :
    rxStep r b = (rxOnDataLast r b, .noEvent) := by
  simp [rxStep, h, Nat.not_lt.mpr hl]

/-- Whichever event the checksum byte gives, the registers after it are the same. -/
theorem rxStep_checksum_fst {r : Rx} (h : r.state = .checksum) (b : Byte) : (rxStep r b).1 = rxOnCsum r b := by
  by_cases hb : b = r.acc <;> simp [rxStep, h, hb]

theorem rxFeed_cons_fst (r : Rx) (b : Byte) (bs : List Byte) :
    (rxFeed r (b :: bs)).1 = (rxFeed (rxStep r b).1 bs).1 := rfl

theorem rxFeed_cons_snd (r : Rx) (b : Byte) (bs : List Byte) :
    (rxFeed r (b :: bs)).2 =
      if (rxStep r b).2 = .noEvent then (rxFeed (rxStep r b).1 bs).2
      else (rxStep r b).2 :: (rxFeed (rxStep r b).1 bs).2 := rfl

theorem rxFeed_append_fst (r : Rx) (xs ys : List Byte) :
    (rxFeed r (xs ++ ys)).1 = (rxFeed (rxFeed r xs).1 ys).1 := by
  induction xs generalizing r with
  | nil => rfl
  | cons x xs ih => exact ih _

theorem rxFeed_append_snd (r : Rx) (xs ys : List Byte) :
    (rxFeed r (xs ++ ys)).2 = (rxFeed r xs).2 ++ (rxFeed (rxFeed r xs).1 ys).2 := by
  induction xs generalizing r with
  | nil => rfl
  | cons x xs ih =>
    rw [List.cons_append, rxFeed_cons_snd, rxFeed_cons_snd, rxFeed_cons_fst, ih]
    split <;> rfl

/-- A byte received in Idle adds no event. -/
theorem rxFeed_concat_snd_of_idle {r : Rx} {xs : List Byte} (h : (rxFeed r xs).1.state = .idle) (e : Byte) :
    (rxFeed r (xs ++ [e])).2 = (rxFeed r xs).2 := by
  have he : (rxFeed (rxFeed r xs).1 [e]).2 = [] := by
    rw [rxFeed_cons_snd, rxStep_idle h]
    rfl
  rw [rxFeed_append_snd, he, List.append_nil]

/-- The payload bytes still missing in Data lead to Checksum (R77, R78). -/
theorem rxFeed_data_state {r : Rx} {p : List Byte} (h : r.state = .data) (hne : p ≠ [])
    (hl : r.idx.toNat + p.length = r.len.toNat) (h64 : r.len.toNat ≤ 64) : (rxFeed r p).1.state = .checksum := by
  induction p generalizing r with
  | nil => contradiction
  | cons b p ih =>
    rw [List.length_cons] at hl
    rw [rxFeed_cons_fst]
    by_cases hp : p = []
    · subst hp
      rw [rxStep_data_last h (by simp only [List.length_nil] at hl; omega)]
      rfl
    · have hpos : 0 < p.length := List.length_pos_of_ne_nil hp
      have hidx : (rxOnDataMore r b).idx.toNat = r.idx.toNat + 1 := rxStore_idx_toNat (by omega) b
      have hlen : (rxOnDataMore r b).len = r.len := rfl
      rw [rxStep_data_more h (by omega)]
      exact ih rfl hp (by rw [hidx, hlen]; omega) h64

/-- A length byte and that many payload bytes lead from Length to Checksum (R75 to R78). -/
theorem rxFeed_length_payload_state {r : Rx} {p : List Byte} (h : r.state = .length) (hp : p.length ≤ 64) :
    (rxFeed r (BitVec.ofNat 8 p.length :: p)).1.state = .checksum := by
  have hlen : (BitVec.ofNat 8 p.length).toNat = p.length := Nat.mod_eq_of_lt (by omega)
  rw [rxFeed_cons_fst]
  by_cases hnil : p = []
  · subst hnil
    exact congrArg (fun q => q.1.state) (rxStep_length_zero h)
  · have hpos : 0 < p.length := List.length_pos_of_ne_nil hnil
    rw [rxStep_length_data h (by omega) (by omega)]
    exact rxFeed_data_state rfl hnil ((Nat.zero_add _).trans hlen.symm) (hlen.trans_le hp)

/-- A frame without its END byte is the other five fields (R45). -/
theorem wireFrame_dropLast (c : Byte) (p : List Byte) :
    (wireFrame c p).dropLast =
      startByte :: c :: ((BitVec.ofNat 8 p.length :: p) ++ [checksum c (BitVec.ofNat 8 p.length) p]) := by
  have h : wireFrame c p =
      (startByte :: c :: ((BitVec.ofNat 8 p.length :: p) ++ [checksum c (BitVec.ofNat 8 p.length) p])) ++
        [endByte] := by
    simp [wireFrame]
  rw [h, List.dropLast_concat]

theorem wireFrame_eq_dropLast_concat (c : Byte) (p : List Byte) :
    wireFrame c p = (wireFrame c p).dropLast ++ [endByte] := by
  rw [wireFrame_dropLast]
  simp [wireFrame]

/-- After a frame's checksum byte the receiver is in Idle, whatever END would be (R79, R80, R82). -/
theorem rxFeed_wireFrame_dropLast_state {r : Rx} {c : Byte} {p : List Byte} (h : r.state = .idle)
    (hp : p.length ≤ 64) : (rxFeed r (wireFrame c p).dropLast).1.state = .idle := by
  rw [wireFrame_dropLast, rxFeed_cons_fst, rxStep_idle h, rxFeed_cons_fst, rxStep_cmd rfl, rxFeed_append_fst,
    rxFeed_cons_fst, rxStep_checksum_fst (rxFeed_length_payload_state rfl hp)]
  rfl

/-- Settles O29: the receiver is in Idle before END, where any one byte is without event. -/
theorem endByteIsNotInspected : Obligations.EndByteIsNotInspected := by
  intro r r' c e p _ hr hr' hp
  have hidle := rxFeed_wireFrame_dropLast_state (c := c) hr hp
  have hmissing : (rxFeed r (wireFrame c p).dropLast).2 = (rxFeed r (wireFrame c p)).2 := by
    conv_rhs => rw [wireFrame_eq_dropLast_concat]
    exact (rxFeed_concat_snd_of_idle hidle endByte).symm
  exact ⟨rxStep_idle hr' e, (rxFeed_concat_snd_of_idle hidle e).trans hmissing, hmissing, hidle⟩

end Sys2Proof.Proofs
end

section
namespace Sys2Proof.Proofs

open Machine

/-! ## Send requests (R100, R101) -/

theorem byteSum_eq_sum_map (p : List Byte) : byteSum p = (p.map (·.toNat)).sum := by
  induction p with
  | nil => rfl
  | cons b p ih => rw [byteSum, ih, List.map_cons, List.sum_cons]

/-- A length may be summed before or after it is cut to a byte: the checksum is modulo 256 anyway (R90). -/
theorem checksum_ofNat (c : Byte) (n : Nat) (p : List Byte) :
    checksum c (BitVec.ofNat 8 n) p = BitVec.ofNat 8 (c.toNat + n + (p.map (·.toNat)).sum) := by
  simp only [checksum, byteSum_eq_sum_map, BitVec.ofNat_add, BitVec.ofNat_toNat, BitVec.setWidth_eq]

theorem sendObs_of_le {p : List Byte} (hp : p.length ≤ 64) (c : Byte) :
    sendObs c p = (wireFrame c p).map Obs.tx ++ [.sendResult true] := if_pos hp

theorem requestInstr_send_of_le {p : List Byte} (hp : p.length ≤ 64) (c : Byte) :
    requestInstr (.send c p) = .txSend c p := if_neg (Nat.not_lt.mpr hp)

theorem requestInstr_send_of_lt {p : List Byte} (hp : 64 < p.length) (c : Byte) :
    requestInstr (.send c p) = .txSendRefuse c p := if_pos hp

/-- TX.SEND.REFUSE reports failure and does nothing else (R101). -/
theorem exec_txSendRefuse (c : Byte) (p : List Byte) (s : State) :
    exec (.txSendRefuse c p) s = .next (s.emit [.sendResult false]) := rfl

/-- Above 64 bytes a send is a refusal, whatever the encoder's state (R101). -/
theorem send_of_lt {p : List Byte} (hp : 64 < p.length) (c : Byte) (s : State) :
    send c p s = s.emit [.sendResult false] := if_pos hp

/-- Settles O45: where sends are one step, the frame's bytes are those of `wireFrame`, its checksum written as a sum. -/
theorem sendWritesWholeFrame : Obligations.SendWritesWholeFrame := by
  intro s c p hp ha
  refine ⟨requestInstr_send_of_le hp c, ?_⟩
  rw [exec_txSend, send_of_atomic ha, sendObs_of_le hp, wireFrame, checksum_ofNat]
  rfl

/-- Settles O46: the operation and TX.SEND itself both refuse above 64 bytes. -/
theorem oversizeSendIsRefused : Obligations.OversizeSendIsRefused := by
  intro s c p
  refine ⟨exec_txSendRefuse c p s, fun hp => ⟨requestInstr_send_of_lt hp c, ?_⟩⟩
  rw [exec_txSend, send_of_lt hp]

end Sys2Proof.Proofs
end

section
namespace Sys2Proof.Proofs

open Machine

/-! ## Unknown commands (R127) -/

/-- A byte that is none of the ten codes fails every test of the selection (R116, R127). -/
theorem classify_of_not_mem {P : Params} {c : Byte} (h : c ∉ P.commandCodes) : classify P c = .unknown := by
  simp only [Params.commandCodes, List.mem_cons, List.not_mem_nil, or_false, not_or] at h
  obtain ⟨hspeed, hstop, hestop, himu, hultrasonic, hall, hled, hbuzzer, hstatus, hreset⟩ := h
  rw [classify, if_neg hspeed, if_neg hstop, if_neg hestop, if_neg himu, if_neg hultrasonic, if_neg hall, if_neg hled,
    if_neg hbuzzer, if_neg hstatus, if_neg hreset]

theorem commandInstr_of_not_mem {P : Params} {c : Byte} (h : c ∉ P.commandCodes) (p : List Byte) :
    commandInstr P c p = .unknown c p := by
  rw [commandInstr, classify_of_not_mem h]

/-- UNKNOWN is the NACK's dispatch: no handler is among its actions (R127). -/
theorem exec_unknown (c : Byte) (p : List Byte) (s : State) :
    exec (.unknown c p) s = .next (dispatch nackActions s) := rfl

/-- UnknownCommand is the outcome of UNKNOWN alone (R143). -/
theorem raises_unknownCommand_iff (i : Instr) :
    raises i = some .unknownCommand ↔ ∃ c p, i = .unknown c p := by
  cases i with
  | unknown c p => exact iff_of_true rfl ⟨c, p, rfl⟩
  | _ => simp [raises]

/-- Settles O58: the selection falls through to UNKNOWN, whose dispatch is that of a wrong checksum's NACK. -/
theorem unknownCommandSendsOneNack : Obligations.UnknownCommandSendsOneNack := by
  intro s c p i ha
  refine ⟨fun h => commandInstr_of_not_mem h p, ?_, raises_unknownCommand_iff i⟩
  rw [exec_unknown, dispatch_nackActions_of_atomic ha]

end Sys2Proof.Proofs
end

section
namespace Sys2Proof.Proofs

open Machine

/-! ## The checksum as a sum of bytes (R90, R95) -/

/-- Modulo 256 the sum of the payload's values is the sum of its bytes. -/
theorem ofNat_byteSum (p : List Byte) : BitVec.ofNat 8 (byteSum p) = p.sum := by
  induction p with
  | nil => rfl
  | cons b p ih => rw [byteSum, BitVec.ofNat_add, BitVec.ofNat_toNat, BitVec.setWidth_eq, ih, List.sum_cons]

/-- The checksum is a sum in the ring of bytes. -/
theorem checksum_eq_add (c l : Byte) (p : List Byte) : checksum c l p = c + l + p.sum := by
  simp only [checksum, BitVec.ofNat_add, BitVec.ofNat_toNat, BitVec.setWidth_eq, ofNat_byteSum]

/-- One more payload byte is accumulated (R92, R95). -/
theorem checksum_concat (c l : Byte) (p : List Byte) (b : Byte) :
    checksum c l (p ++ [b]) = accumulate (checksum c l p) b := by
  simp only [checksum_eq_add, accumulate, List.sum_append, List.sum_singleton, add_assoc]

theorem checksum_nil (c l : Byte) : checksum c l [] = accumulate c l := by
  rw [checksum_eq_add, List.sum_nil, add_zero, accumulate]

/-- The checksum with one payload byte taken out of its place. -/
theorem checksum_middle (c l x : Byte) (p q : List Byte) :
    checksum c l (p ++ x :: q) = x + (c + l + (p ++ q).sum) := by
  rw [checksum_eq_add, List.sum_append, List.sum_append, List.sum_cons]
  ring

/-- Settles O44: every clause is about a sum in a commutative group. -/
theorem checksumPropertiesHold : Obligations.ChecksumPropertiesHold := by
  intro c c' l l' x y d p q r n
  refine ⟨checksum_concat c l p x, fun h => ?_, ?_, ?_, fun h => ?_, fun h => ?_, fun h => ?_, ?_, ?_⟩
  · rw [checksum_eq_add, checksum_eq_add, h.sum_eq]
  · rw [checksum_eq_add, checksum_eq_add, add_comm c l]
  · rw [checksum_middle, checksum_middle]
    ring
  · rw [checksum_eq_add, checksum_eq_add] at h
    exact add_right_cancel (add_right_cancel h)
  · rw [checksum_eq_add, checksum_eq_add] at h
    exact add_left_cancel (add_right_cancel h)
  · rw [checksum_middle, checksum_middle] at h
    exact add_right_cancel h
  · simp only [checksum_eq_add, List.sum_append, List.sum_cons]
    ring
  · rw [checksum_eq_add, checksum_eq_add, List.sum_append, List.sum_replicate, smul_zero, add_zero]

/-- Settles O41: the byte of a sum is that of its remainder modulo 256. -/
theorem checksumFunctionIsSumModulo256 : Obligations.ChecksumFunctionIsSumModulo256 := by
  intro s c l p
  have hmod (n : Nat) : BitVec.ofNat 8 (n % 256) = BitVec.ofNat 8 n := BitVec.eq_of_toNat_eq (Nat.mod_mod n 256)
  rw [hmod, ← byteSum_eq_sum_map]
  rfl

/-- Settles O42: the four forms of the operand. -/
theorem accumulatorLoadsOrAdds : Obligations.AccumulatorLoadsOrAdds :=
  fun _ _ => ⟨rfl, rfl, rfl, rfl⟩

/-- Settles O43: two bytes with the same eight bits are equal. -/
theorem validatorComparesAllBits : Obligations.ValidatorComparesAllBits := by
  intro s b e
  refine ⟨csumMatch b e, rfl, ?_⟩
  rw [csumMatch, beq_iff_eq]
  exact ⟨fun h k _ => by rw [h], BitVec.eq_of_getLsbD_eq⟩

end Sys2Proof.Proofs
end

section
namespace Sys2Proof.Proofs

open Machine

/-! ## Receiver keys (R64) -/

/-- The two fields of a key with any state code. -/
theorem extract_code_append (c : BitVec 3) (b : Byte) : (c ++ b).extractLsb' 8 3 = c :=
  BitVec.extractLsb'_append_eq_left

theorem extract_byte_append (c : BitVec 3) (b : Byte) : (c ++ b).extractLsb' 0 8 = b :=
  BitVec.extractLsb'_append_eq_right

theorem decodeKey_append (idx len acc b : Byte) (c : BitVec 3) :
    decodeKey idx len acc (c ++ b) = selectReceive idx len acc (stateOfCode c) b := by
  rw [decodeKey, extract_code_append, extract_byte_append]

theorem decodeKey_keyOf (idx len acc b : Byte) (st : RxState) :
    decodeKey idx len acc (keyOf st b) = selectReceive idx len acc st b := by
  rw [keyOf, decodeKey_append, stateOfCode_codeOfState]

/-- The codes that R10 gives no state (D3). -/
theorem stateOfCode_of_five_le (c : BitVec 3) (h : 5 ≤ c.toNat) : stateOfCode c = .idle := by
  revert c
  decide

/-- What a selected operation is, said once (R64): its operands are those its rule admits, the registers select it, and
its key is the one that selected it. -/
theorem selectReceive_spec (P : Params) (idx len acc : Byte) (st : RxState) (b : Byte) :
    WellFormed P (selectReceive idx len acc st b) = true ∧
      selectedBy idx len acc (selectReceive idx len acc st b) = true ∧
      encode P (selectReceive idx len acc st b) = some (.key (keyOf st b)) := by
  cases st with
  | idle =>
    by_cases hstart : b = startByte
    · have hi : selectReceive idx len acc .idle b = .rxIdleStart := if_pos hstart
      rw [hi, hstart]
      exact ⟨rfl, rfl, rfl⟩
    · have hi : selectReceive idx len acc .idle b = .rxIdleSkip b := if_neg hstart
      rw [hi]
      exact ⟨decide_eq_true hstart, rfl, rfl⟩
  | cmd => exact ⟨rfl, rfl, rfl⟩
  | length =>
    by_cases hover : lenOver b = true
    · have hi : selectReceive idx len acc .length b = .rxLenOver b := if_pos hover
      rw [hi]
      exact ⟨hover, rfl, rfl⟩
    · by_cases hzero : lenZero b = true
      · obtain rfl := (lenZero_iff b).mp hzero
        exact ⟨rfl, rfl, rfl⟩
      · have hi : selectReceive idx len acc .length b = .rxLenData b := (if_neg hover).trans (if_neg hzero)
        have hle : b.toNat ≤ maxPayload := Nat.not_lt.mp fun h => hover ((lenOver_iff b).mpr h)
        have hpos : 1 ≤ b.toNat :=
          Nat.one_le_iff_ne_zero.mpr fun h => hzero ((lenZero_iff b).mpr (BitVec.eq_of_toNat_eq h))
        rw [hi]
        exact ⟨decide_eq_true ⟨hpos, hle⟩, rfl, rfl⟩
  | data =>
    by_cases hmore : dataMore idx len = true
    · have hi : selectReceive idx len acc .data b = .rxDataMore b := if_pos hmore
      rw [hi]
      exact ⟨rfl, hmore, rfl⟩
    · have hi : selectReceive idx len acc .data b = .rxDataLast b := if_neg hmore
      rw [hi]
      exact ⟨rfl, by simpa [selectedBy] using hmore, rfl⟩
  | checksum =>
    by_cases hmatch : csumMatch b acc = true
    · have hi : selectReceive idx len acc .checksum b = .rxCsumOk b := if_pos hmatch
      rw [hi]
      exact ⟨rfl, hmatch, rfl⟩
    · have hi : selectReceive idx len acc .checksum b = .rxCsumBad b := if_neg hmatch
      rw [hi]
      exact ⟨rfl, by simpa [selectedBy] using hmatch, rfl⟩

/-- Settles O3: a key is decoded by the selection, for which the three facts hold. -/
theorem everyKeySelectsOneWellFormedOperation : Obligations.EveryKeySelectsOneWellFormedOperation := by
  intro P idx len acc k
  obtain ⟨hwf, hsel, henc⟩ :=
    selectReceive_spec P idx len acc (stateOfCode (k.extractLsb' 8 3)) (k.extractLsb' 0 8)
  refine ⟨hwf, hsel, fun h => ?_⟩
  rw [decodeKey, henc, keyOf_fields k _ (codeOfState_stateOfCode _ h)]

/-- Settles O4: the state code is read before anything else, and a stray one is read as Idle. -/
theorem strayStateCodesActAsIdle : Obligations.StrayStateCodesActAsIdle := by
  intro idx len acc b c h
  rw [decodeKey_append, decodeKey_append, stateOfCode_of_five_le c h]
  rfl

/-- Settles O5: the words are decoded by evaluation. -/
theorem sampleWordsDecode : Obligations.SampleWordsDecode := by
  unfold Obligations.SampleWordsDecode
  decide

/-- Settles O2: for each receiver operation, its operand and the registers take the selection's own branch. -/
theorem keyDecodesFromItsEncoding : Obligations.KeyDecodesFromItsEncoding := by
  intro P i idx len acc k hwf hsel henc
  cases i <;> cases henc <;> rw [decodeKey_keyOf]
  case rxIdleStart => rfl
  case rxIdleSkip b => exact if_neg (of_decide_eq_true hwf)
  case rxCmd b => rfl
  case rxLenOver b => exact if_pos hwf
  case rxLenZero => rfl
  case rxLenData b =>
    obtain ⟨hpos, hle⟩ := of_decide_eq_true hwf
    have hover : ¬ lenOver b = true := fun h => absurd ((lenOver_iff b).mp h) (Nat.not_lt.mpr hle)
    have hzero : ¬ lenZero b = true := fun h => absurd hpos (by simp [(lenZero_iff b).mp h])
    exact (if_neg hover).trans (if_neg hzero)
  case rxDataMore b => exact if_pos hsel
  case rxDataLast b => exact if_neg (by simpa [selectedBy] using hsel)
  case rxCsumOk b => exact if_pos hsel
  case rxCsumBad b => exact if_neg (by simpa [selectedBy] using hsel)

/-! ## Frames on the wire (R45, R55, R56) -/

/-- The operation of a command's frame: UNKNOWN keeps its command byte. -/
def commandOp (c : Byte) (p : List Byte) : Command → Instr
  | .motorSetSpeed => .motorSetSpeed p
  | .motorStop => .motorStop p
  | .motorEstop => .motorEstop p
  | .imuReq => .imuReq p
  | .ultrasonicReq => .ultrasonicReq p
  | .allSensorsReq => .allSensorsReq p
  | .ledControl => .ledControl p
  | .buzzerControl => .buzzerControl p
  | .statusReq => .statusReq p
  | .reset => .resetCommand p
  | .unknown => .unknown c p

theorem commandInstr_eq_commandOp (P : Params) (c : Byte) (p : List Byte) :
    commandInstr P c p = commandOp c p (classify P c) := by
  unfold commandInstr
  cases classify P c <;> rfl

/-- The codes of R9 being distinct, each of the ten commands is selected by its own (R116). -/
theorem classify_commandCode {P : Params} (hP : P.wf) {k : Command} (hk : k ≠ .unknown) (own : Byte) :
    classify P (commandCode P own k) = k := by
  obtain ⟨hnodup, -⟩ := hP
  obtain ⟨hcodes, -, -⟩ := List.nodup_append.mp hnodup
  simp only [Params.commandCodes, List.nodup_cons, List.mem_cons, List.not_mem_nil, or_false, not_or] at hcodes
  cases k <;> simp_all [classify, commandCode, eq_comm]

theorem commandInstr_commandCode {P : Params} (hP : P.wf) {k : Command} (hk : k ≠ .unknown) (own : Byte)
    (p : List Byte) : commandInstr P (commandCode P own k) p = commandOp (commandCode P own k) p k := by
  rw [commandInstr_eq_commandOp, classify_commandCode hP hk]

/-- Settles O6: each of the ten codes is its command's, and any other byte is UNKNOWN. -/
theorem commandByteSelectsCommand : Obligations.CommandByteSelectsCommand := by
  intro P c p hP
  have hcode {k : Command} (hk : k ≠ .unknown) := commandInstr_commandCode hP hk 0 p
  exact ⟨hcode (k := .motorSetSpeed) nofun, hcode (k := .motorStop) nofun, hcode (k := .motorEstop) nofun,
    hcode (k := .imuReq) nofun, hcode (k := .ultrasonicReq) nofun, hcode (k := .allSensorsReq) nofun,
    hcode (k := .ledControl) nofun, hcode (k := .buzzerControl) nofun, hcode (k := .statusReq) nofun,
    hcode (k := .reset) nofun, fun h => commandInstr_of_not_mem h p⟩

theorem toNat_ofNat_length {p : List Byte} (hp : p.length ≤ 64) : (BitVec.ofNat 8 p.length).toNat = p.length :=
  Nat.mod_eq_of_lt (by omega)

/-- A frame's bytes decode to the frame of its command byte and payload, and END is left (R45, R51). -/
theorem decodeFrame_wireFrame {P : Params} {d : Direction} {c : Byte} {p : List Byte} {i : Instr}
    (hp : p.length ≤ 64) (hi : frameInstr P d c p = .ok i) (rest : List Byte) :
    decodeFrame P d (wireFrame c p ++ rest) = .ok (i, endByte :: rest) := by
  have hlen := toNat_ofNat_length hp
  have hover : ¬ lenOver (BitVec.ofNat 8 p.length) = true := by
    rw [lenOver_iff, hlen]
    omega
  have hbytes : wireFrame c p ++ rest = startByte :: c :: BitVec.ofNat 8 p.length ::
      (p ++ checksum c (BitVec.ofNat 8 p.length) p :: endByte :: rest) := by
    simp [wireFrame]
  simp [hbytes, decodeFrame, decodeBody, hover, hlen, hi]

theorem frameInstr_toDevice {P : Params} {c : Byte} {p : List Byte} {i : Instr} (h : commandInstr P c p = i) :
    frameInstr P .toDevice c p = .ok i := congrArg Except.ok h

theorem decodeFrame_commandCodeWord {P : Params} {k : Command} {p bytes : List Byte} {d : Direction} (hP : P.wf)
    (hk : k ≠ .unknown) (hp : p.length ≤ 64) (h : commandCodeWord P k p = some (.wire d bytes)) (rest : List Byte) :
    decodeFrame P d (bytes ++ rest) = .ok (commandOp (commandCode P 0 k) p k, endByte :: rest) := by
  cases h
  exact decodeFrame_wireFrame hp (frameInstr_toDevice (commandInstr_commandCode hP hk 0 p)) rest

/-- The four bytes of a value are put together again (R62). -/
theorem extractLsb'_append_bytes (w : Word32) :
    w.extractLsb' 24 8 ++ w.extractLsb' 16 8 ++ w.extractLsb' 8 8 ++ w.extractLsb' 0 8 = w := by
  apply BitVec.eq_of_getLsbD_eq
  intro i hi
  simp only [BitVec.getLsbD_append, BitVec.getLsbD_extractLsb']
  grind

/-- A value's four bytes read back as the value in either byte order (R62). -/
theorem wordOfBytes_little (w : Word32) :
    wordOfBytes .little (w.extractLsb' 0 8) (w.extractLsb' 8 8) (w.extractLsb' 16 8) (w.extractLsb' 24 8) = w :=
  extractLsb'_append_bytes w

theorem wordOfBytes_big (w : Word32) :
    wordOfBytes .big (w.extractLsb' 24 8) (w.extractLsb' 16 8) (w.extractLsb' 8 8) (w.extractLsb' 0 8) = w :=
  extractLsb'_append_bytes w

theorem imuOfPayload_imuPayload (o : ByteOrder) (r : ImuRecord) : imuOfPayload o (imuPayload o r) = r := by
  cases o <;> simp [imuOfPayload, imuPayload, wordAt, bytesOfWord, wordOfBytes_little, wordOfBytes_big]

theorem ultrasonicOfPayload_ultrasonicPayload (o : ByteOrder) (r : UltrasonicRecord) :
    ultrasonicOfPayload o (ultrasonicPayload o r) = r := by
  cases o <;> simp [ultrasonicOfPayload, ultrasonicPayload, wordAt, bytesOfWord, wordOfBytes_little, wordOfBytes_big]

theorem statusOfPayload_statusPayload (o : ByteOrder) (r : StatusRecord) :
    statusOfPayload o (statusPayload o r) = r := by
  cases o <;> simp [statusOfPayload, statusPayload, wordAt, bytesOfWord, wordOfBytes_little, wordOfBytes_big]

theorem imuPayload_length (o : ByteOrder) (r : ImuRecord) : (imuPayload o r).length = 48 := by
  cases o <;> rfl

theorem ultrasonicPayload_length (o : ByteOrder) (r : UltrasonicRecord) : (ultrasonicPayload o r).length = 16 := by
  cases o <;> rfl

theorem statusPayload_length (o : ByteOrder) (r : StatusRecord) : (statusPayload o r).length = 10 := by
  cases o <;> rfl

/-- The codes of R9 being distinct, a response's code and payload give the response back (R56). -/
theorem responseOf_response {P : Params} (hP : P.wf) (r : Response) :
    responseOf P (responseCode P r) (responsePayload P r) = some r := by
  obtain ⟨hnodup, -⟩ := hP
  obtain ⟨-, hcodes, -⟩ := List.nodup_append.mp hnodup
  simp only [Params.responseCodes, List.nodup_cons, List.mem_cons, List.not_mem_nil, or_false, not_or] at hcodes
  cases r <;>
    simp_all [responseOf, responseCode, responsePayload, eq_comm, imuPayload_length, imuOfPayload_imuPayload,
      ultrasonicPayload_length, ultrasonicOfPayload_ultrasonicPayload, statusPayload_length,
      statusOfPayload_statusPayload]

theorem decodeFrame_responseCodeWord {P : Params} {r : Response} {bytes : List Byte} {d : Direction} (hP : P.wf)
    (hp : (responsePayload P r).length ≤ 64) (h : responseCodeWord P r = some (.wire d bytes)) (rest : List Byte) :
    decodeFrame P d (bytes ++ rest) = .ok (responseInstr r, endByte :: rest) := by
  cases h
  have hi : frameInstr P .toHost (responseCode P r) (responsePayload P r) = .ok (responseInstr r) := by
    rw [frameInstr, responseOf_response hP]
  exact decodeFrame_wireFrame hp hi rest

/-- Settles O1: an operation with a wire form is a command's, UNKNOWN's or a response's; the lemmas above are about these,
and what is left of each case is the bound on the payload. -/
theorem frameDecodesFromItsEncoding : Obligations.FrameDecodesFromItsEncoding := by
  intro P i d bytes rest hP hwf henc
  have hcommand {k : Command} {p : List Byte} (hk : k ≠ .unknown) (hp : p.length ≤ 64)
      (h : commandCodeWord P k p = some (.wire d bytes)) := decodeFrame_commandCodeWord hP hk hp h rest
  have hresponse {r : Response} (hp : (responsePayload P r).length ≤ 64)
      (h : responseCodeWord P r = some (.wire d bytes)) := decodeFrame_responseCodeWord hP hp h rest
  cases i
  case motorSetSpeed p => exact hcommand (k := .motorSetSpeed) nofun (of_decide_eq_true hwf) henc
  case motorStop p => exact hcommand (k := .motorStop) nofun (of_decide_eq_true hwf) henc
  case motorEstop p => exact hcommand (k := .motorEstop) nofun (of_decide_eq_true hwf) henc
  case imuReq p => exact hcommand (k := .imuReq) nofun (of_decide_eq_true hwf) henc
  case ultrasonicReq p => exact hcommand (k := .ultrasonicReq) nofun (of_decide_eq_true hwf) henc
  case allSensorsReq p => exact hcommand (k := .allSensorsReq) nofun (of_decide_eq_true hwf) henc
  case ledControl p => exact hcommand (k := .ledControl) nofun (of_decide_eq_true hwf) henc
  case buzzerControl p => exact hcommand (k := .buzzerControl) nofun (of_decide_eq_true hwf) henc
  case statusReq p => exact hcommand (k := .statusReq) nofun (of_decide_eq_true hwf) henc
  case resetCommand p => exact hcommand (k := .reset) nofun (of_decide_eq_true hwf) henc
  case unknown c p =>
    obtain ⟨hc, hp⟩ := of_decide_eq_true hwf
    cases henc
    exact decodeFrame_wireFrame hp (frameInstr_toDevice (commandInstr_of_not_mem hc p)) rest
  case ack => exact hresponse (r := .ack) (Nat.zero_le _) henc
  case nack => exact hresponse (r := .nack) (Nat.zero_le _) henc
  case imuData r => exact hresponse (r := .imuData r) (by rw [responsePayload, imuPayload_length]; decide) henc
  case ultrasonicData r =>
    exact hresponse (r := .ultrasonicData r) (by rw [responsePayload, ultrasonicPayload_length]; decide) henc
  case allSensorsData p => exact hresponse (r := .allSensorsData p) (of_decide_eq_true hwf) henc
  case systemStatus r =>
    exact hresponse (r := .systemStatus r) (by rw [responsePayload, statusPayload_length]; decide) henc
  all_goals cases henc

end Sys2Proof.Proofs
end

section
namespace Sys2Proof.Proofs

open Machine

/-! ## What a receiver step can be, and the invariant it keeps (R70, R83) -/

theorem rxStep_idle_start {r : Rx} (h : r.state = .idle) {b : Byte} (hb : b = startByte) :
    rxStep r b = (rxOnIdleStart r, .noEvent) := by
  simp [rxStep, h, hb]

theorem rxStep_idle_skip {r : Rx} (h : r.state = .idle) {b : Byte} (hb : b ≠ startByte) :
    rxStep r b = (rxOnIdleSkip r, .noEvent) := by
  simp [rxStep, h, hb]

theorem rxStep_length_over {r : Rx} (h : r.state = .length) {b : Byte} (hb : 64 < b.toNat) :
    rxStep r b = (rxOnLenOver r b, .noEvent) := by
  have hover : maxPayload < b.toNat := hb
  simp only [rxStep, h, hover, if_true]

theorem rxStep_checksum_match {r : Rx} (h : r.state = .checksum) {b : Byte} (hb : b = r.acc) :
    rxStep r b = (rxOnCsum r b, .frameOut (rxFrame r b)) := by
  simp [rxStep, h, hb]

theorem rxStep_checksum_mismatch {r : Rx} (h : r.state = .checksum) {b : Byte} (hb : b ≠ r.acc) :
    rxStep r b = (rxOnCsum r b, .nackOut) := by
  simp [rxStep, h, hb]

/-- The ten branches of R70, said once. -/
theorem rxStep_cases (r : Rx) (b : Byte) :
    (r.state = .idle ∧ b = startByte ∧ rxStep r b = (rxOnIdleStart r, .noEvent)) ∨
    (r.state = .idle ∧ b ≠ startByte ∧ rxStep r b = (rxOnIdleSkip r, .noEvent)) ∨
    (r.state = .cmd ∧ rxStep r b = (rxOnCmd r b, .noEvent)) ∨
    (r.state = .length ∧ 64 < b.toNat ∧ rxStep r b = (rxOnLenOver r b, .noEvent)) ∨
    (r.state = .length ∧ b = 0 ∧ rxStep r b = (rxOnLenZero r, .noEvent)) ∨
    (r.state = .length ∧ (1 ≤ b.toNat ∧ b.toNat ≤ 64) ∧ rxStep r b = (rxOnLenData r b, .noEvent)) ∨
    (r.state = .data ∧ r.idx.toNat + 1 < r.len.toNat ∧ rxStep r b = (rxOnDataMore r b, .noEvent)) ∨
    (r.state = .data ∧ r.len.toNat ≤ r.idx.toNat + 1 ∧ rxStep r b = (rxOnDataLast r b, .noEvent)) ∨
    (r.state = .checksum ∧ b = r.acc ∧ rxStep r b = (rxOnCsum r b, .frameOut (rxFrame r b))) ∨
    (r.state = .checksum ∧ b ≠ r.acc ∧ rxStep r b = (rxOnCsum r b, .nackOut)) := by
  cases h : r.state
  case idle =>
    by_cases hb : b = startByte
    · simp [hb, rxStep_idle_start h rfl]
    · simp [hb, rxStep_idle_skip h hb]
  case cmd => simp [rxStep_cmd h]
  case length =>
    by_cases hover : 64 < b.toNat
    · simp [hover, rxStep_length_over h hover]
    · by_cases hzero : b = 0
      · subst hzero
        exact .inr (.inr (.inr (.inr (.inl ⟨rfl, rfl, rxStep_length_zero h⟩))))
      · have hpos : 1 ≤ b.toNat := Nat.one_le_iff_ne_zero.mpr fun hb => hzero (BitVec.eq_of_toNat_eq hb)
        have hle : b.toNat ≤ 64 := Nat.not_lt.mp hover
        simp [hpos, hle, rxStep_length_data h hpos hle]
  case data =>
    by_cases hmore : r.idx.toNat + 1 < r.len.toNat
    · simp [hmore, rxStep_data_more h hmore]
    · simp [Nat.not_lt.mp hmore, rxStep_data_last h (Nat.not_lt.mp hmore)]
  case checksum =>
    by_cases hb : b = r.acc
    · simp [hb, rxStep_checksum_match h rfl]
    · simp [hb, rxStep_checksum_mismatch h hb]

/-- Between frames the invariant says nothing but that the buffer is canonical. -/
theorem rxInv_of_idle_or_cmd {r : Rx} (hw : r.buf.wf = true) (h : r.state = .idle ∨ r.state = .cmd) : RxInv r := by
  obtain h | h := h <;> simp [RxInv, hw, h]

/-- A store adds one byte to what has been received of the payload. -/
theorem readPayload_rxStore {r : Rx} (hw : r.buf.wf = true) (hi : r.idx.toNat < 64) (b : Byte) :
    readPayload (rxStore r b).buf (r.idx.toNat + 1) = readPayload r.buf r.idx.toNat ++ [b] := by
  have hbefore : readPayload (rxStore r b).buf r.idx.toNat = readPayload r.buf r.idx.toNat :=
    readPayload_congr fun a ha => by rw [readCell_rxStore hw hi, if_neg (Nat.ne_of_gt ha)]
  rw [readPayload_succ, hbefore, readCell_rxStore hw hi, if_pos rfl]

/-- A store keeps the buffer canonical and the accumulator the checksum of what has been received (R92). -/
theorem rxStore_acc {r : Rx} (hw : r.buf.wf = true) (hi : r.idx.toNat < 64)
    (hacc : r.acc = checksum r.cmd r.len (readPayload r.buf r.idx.toNat)) (b : Byte) :
    (rxStore r b).acc = checksum r.cmd r.len (readPayload (rxStore r b).buf (r.idx.toNat + 1)) := by
  rw [readPayload_rxStore hw hi, checksum_concat, ← hacc]
  rfl

/-- Every receiver step keeps the receiver's invariant (R83). -/
theorem rxStep_keeps_rxInv {r : Rx} (hr : RxInv r) (b : Byte) : RxInv (rxStep r b).1 := by
  obtain ⟨hw, hlength, hdata, -⟩ := hr
  obtain ⟨-, -, hs⟩ | ⟨-, -, hs⟩ | ⟨-, hs⟩ | ⟨-, -, hs⟩ | ⟨h, -, hs⟩ | ⟨h, ⟨hpos, hle⟩, hs⟩ | ⟨h, hmore, hs⟩ |
    ⟨h, hlast, hs⟩ | ⟨-, -, hs⟩ | ⟨-, -, hs⟩ := rxStep_cases r b <;> rw [hs]
  · exact rxInv_of_idle_or_cmd hw (.inr rfl)
  · exact rxInv_of_idle_or_cmd hw (.inl rfl)
  · simp [RxInv, rxOnCmd, hw, accUpdate]
  · exact rxInv_of_idle_or_cmd hw (.inl rfl)
  · simp [RxInv, rxOnLenZero_eq, hw, hlength h, readPayload, checksum_nil, accumulate]
  · have hacc : accumulate r.acc b = checksum r.cmd b [] := by rw [checksum_nil, hlength h]
    simp [RxInv, rxOnLenData, accUpdate, hw, hpos, hle, maxPayload, readPayload, hacc]
    omega
  · obtain ⟨hpos, hle, hidx, hacc⟩ := hdata h
    have hi : r.idx.toNat < 64 := hidx.trans_le hle
    refine ⟨writeBuf_wf hw, nofun, fun _ => ⟨hpos, hle, ?_, ?_⟩, nofun⟩
    · exact (rxStore_idx_toNat hi b).trans_lt hmore
    · exact (rxStore_acc hw hi hacc b).trans (by rw [← rxStore_idx_toNat hi b]; rfl)
  · obtain ⟨-, hle, hidx, hacc⟩ := hdata h
    have hlen : r.idx.toNat + 1 = r.len.toNat := by omega
    refine ⟨writeBuf_wf hw, nofun, nofun, fun _ => ⟨hle, ?_⟩⟩
    exact (rxStore_acc hw (hidx.trans_le hle) hacc b).trans (by rw [hlen]; rfl)
  · exact rxInv_of_idle_or_cmd hw (.inl rfl)
  · exact rxInv_of_idle_or_cmd hw (.inl rfl)

/-! ## The receiver as a machine over what it has received (R17, R70)

Under the invariant the registers stand for the bytes since Idle. `Progress` keeps these alone, and every receiver step
is a step of it. -/

/-- What has been received of a frame so far. -/
inductive Progress where
  | idle
  | cmd
  | length (c : Byte)
  | data (c l : Byte) (p : List Byte)
  | checksum (c l : Byte) (p : List Byte)

/-- What the registers stand for. -/
def progress (r : Rx) : Progress :=
  match r.state with
  | .idle => .idle
  | .cmd => .cmd
  | .length => .length r.cmd
  | .data => .data r.cmd r.len (readPayload r.buf r.idx.toNat)
  | .checksum => .checksum r.cmd r.len (readPayload r.buf r.len.toNat)

theorem progress_idle {r : Rx} (h : r.state = .idle) : progress r = .idle := by simp [progress, h]

theorem progress_cmd {r : Rx} (h : r.state = .cmd) : progress r = .cmd := by simp [progress, h]

theorem progress_length {r : Rx} (h : r.state = .length) : progress r = .length r.cmd := by simp [progress, h]

theorem progress_data {r : Rx} (h : r.state = .data) {n : Nat} (hn : r.idx.toNat = n) :
    progress r = .data r.cmd r.len (readPayload r.buf n) := by simp [progress, h, hn]

theorem progress_checksum {r : Rx} (h : r.state = .checksum) {n : Nat} (hn : r.len.toNat = n) :
    progress r = .checksum r.cmd r.len (readPayload r.buf n) := by simp [progress, h, hn]

/-- One byte more. -/
def Progress.step : Progress → Byte → Progress × RxEvent
  | .idle, b => (if b = startByte then .cmd else .idle, .noEvent)
  | .cmd, b => (.length b, .noEvent)
  | .length c, b => (if 64 < b.toNat then .idle else if b = 0 then .checksum c 0 [] else .data c b [], .noEvent)
  | .data c l p, b =>
    (if p.length + 1 < l.toNat then .data c l (p ++ [b]) else .checksum c l (p ++ [b]), .noEvent)
  | .checksum c l p, b =>
    (.idle, if b = Machine.checksum c l p then .frameOut { cmd := c, len := l, payload := p, csum := b } else .nackOut)

/-- Bytes one after another. -/
def Progress.feed : Progress → List Byte → Progress × List RxEvent
  | s, [] => (s, [])
  | s, b :: bs =>
    (((s.step b).1.feed bs).1,
      if (s.step b).2 = .noEvent then ((s.step b).1.feed bs).2 else (s.step b).2 :: ((s.step b).1.feed bs).2)

/-- A receiver step is a step of what the registers stand for. -/
theorem progress_step {r : Rx} (hr : RxInv r) (b : Byte) :
    (progress r).step b = (progress (rxStep r b).1, (rxStep r b).2) := by
  obtain ⟨hw, -, hdata, hsum⟩ := hr
  obtain ⟨h, hb, hs⟩ | ⟨h, hb, hs⟩ | ⟨h, hs⟩ | ⟨h, hover, hs⟩ | ⟨h, hb, hs⟩ | ⟨h, ⟨hpos, hle⟩, hs⟩ |
    ⟨h, hmore, hs⟩ | ⟨h, hlast, hs⟩ | ⟨h, hb, hs⟩ | ⟨h, hb, hs⟩ := rxStep_cases r b <;> rw [hs]
  · rw [progress_idle h, Progress.step, if_pos hb]
    rfl
  · rw [progress_idle h, Progress.step, if_neg hb]
    rfl
  · rw [progress_cmd h]
    rfl
  · rw [progress_length h, Progress.step, if_pos hover]
    rfl
  · subst hb
    rw [progress_length h]
    rfl
  · have hne : b ≠ 0 := by
      rintro rfl
      simp at hpos
    rw [progress_length h, Progress.step, if_neg (Nat.not_lt.mpr hle), if_neg hne]
    rfl
  · obtain ⟨-, hle, hidx, -⟩ := hdata h
    have hi : r.idx.toNat < 64 := hidx.trans_le hle
    have hafter : progress (rxOnDataMore r b) = .data r.cmd r.len (readPayload r.buf r.idx.toNat ++ [b]) :=
      (progress_data (r := rxOnDataMore r b) rfl (rxStore_idx_toNat hi b)).trans
        (congrArg (Progress.data r.cmd r.len) (readPayload_rxStore hw hi b))
    rw [progress_data h rfl, Progress.step, readPayload_length, if_pos hmore, hafter]
  · obtain ⟨-, hle, hidx, -⟩ := hdata h
    have hi : r.idx.toNat < 64 := hidx.trans_le hle
    have hlen : r.len.toNat = r.idx.toNat + 1 := by omega
    have hafter : progress (rxOnDataLast r b) = .checksum r.cmd r.len (readPayload r.buf r.idx.toNat ++ [b]) :=
      (progress_checksum (r := rxOnDataLast r b) rfl hlen).trans
        (congrArg (Progress.checksum r.cmd r.len) (readPayload_rxStore hw hi b))
    rw [progress_data h rfl, Progress.step, readPayload_length, if_neg (Nat.not_lt.mpr hlast), hafter]
  · rw [(hsum h).2] at hb
    rw [progress_checksum h rfl, Progress.step, if_pos hb]
    rfl
  · rw [(hsum h).2] at hb
    rw [progress_checksum h rfl, Progress.step, if_neg hb]
    rfl

/-- The events of received bytes are those of what the registers stand for (R17). -/
theorem progress_feed {r : Rx} (hr : RxInv r) (bs : List Byte) :
    (progress r).feed bs = (progress (rxFeed r bs).1, (rxFeed r bs).2) := by
  induction bs generalizing r with
  | nil => rfl
  | cons b bs ih =>
    rw [Progress.feed, progress_step hr, ih (rxStep_keeps_rxInv hr b), rxFeed_cons_fst, rxFeed_cons_snd]

theorem progress_feed_of_idle {r : Rx} (hw : r.buf.wf = true) (h : r.state = .idle) (bs : List Byte) :
    Progress.idle.feed bs = (progress (rxFeed r bs).1, (rxFeed r bs).2) := by
  rw [← progress_idle h, progress_feed (rxInv_of_idle_or_cmd hw (.inl h))]

/-- Settles O28: both receivers stand for Idle. -/
theorem eventsDependOnBytesSinceIdle : Obligations.EventsDependOnBytesSinceIdle := by
  intro r r' bs hw hw' h h'
  have hfeed := (progress_feed_of_idle hw h bs).symm.trans (progress_feed_of_idle hw' h' bs)
  exact (Prod.mk.inj hfeed).2

/-! ## Receiving an encoded frame (R88) -/

/-- The payload bytes still missing are received in order. -/
theorem feed_data (c l : Byte) {p q : List Byte} (hp : p ≠ []) (hl : q.length + p.length = l.toNat)
    (rest : List Byte) :
    (Progress.data c l q).feed (p ++ rest) = (Progress.checksum c l (q ++ p)).feed rest := by
  induction p generalizing q with
  | nil => contradiction
  | cons b p ih =>
    rw [List.length_cons] at hl
    rw [List.cons_append, Progress.feed, Progress.step]
    by_cases hnil : p = []
    · subst hnil
      rw [List.length_nil] at hl
      rw [if_neg (by omega)]
      rfl
    · have hpos : 0 < p.length := List.length_pos_of_ne_nil hnil
      have hrest : (Progress.data c l (q ++ [b])).feed (p ++ rest) =
          (Progress.checksum c l (q ++ b :: p)).feed rest := by
        rw [ih hnil (by rw [List.length_append, List.length_singleton]; omega), List.append_assoc]
        rfl
      rw [if_pos (by omega), if_pos rfl, hrest]

/-- A length byte and that many payload bytes are received. -/
theorem feed_length_payload (c : Byte) {p : List Byte} (hp : p.length ≤ 64) (rest : List Byte) :
    (Progress.length c).feed (BitVec.ofNat 8 p.length :: (p ++ rest)) =
      (Progress.checksum c (BitVec.ofNat 8 p.length) p).feed rest := by
  have hlen := toNat_ofNat_length hp
  by_cases hnil : p = []
  · subst hnil
    rfl
  · have hpos : 0 < p.length := List.length_pos_of_ne_nil hnil
    have hne : BitVec.ofNat 8 p.length ≠ 0 := fun h => by
      rw [h] at hlen
      exact absurd hlen.symm (Nat.ne_of_gt hpos)
    rw [Progress.feed, Progress.step, if_neg (by omega), if_neg hne, if_pos rfl,
      feed_data c _ hnil (by rw [hlen, List.length_nil, Nat.zero_add])]
    rfl

/-- The bytes of a frame give the frame. -/
theorem feed_wireFrame (c : Byte) {p : List Byte} (hp : p.length ≤ 64) :
    Progress.idle.feed (wireFrame c p) =
      (.idle, [.frameOut
        { cmd := c, len := BitVec.ofNat 8 p.length, payload := p
          csum := checksum c (BitVec.ofNat 8 p.length) p }]) := by
  have hbytes : wireFrame c p =
      startByte :: c :: BitVec.ofNat 8 p.length :: (p ++ [checksum c (BitVec.ofNat 8 p.length) p, endByte]) := by
    simp [wireFrame]
  have hcsum : (Progress.checksum c (BitVec.ofNat 8 p.length) p).feed
      [checksum c (BitVec.ofNat 8 p.length) p, endByte] =
      (.idle, [.frameOut
        { cmd := c, len := BitVec.ofNat 8 p.length, payload := p
          csum := checksum c (BitVec.ofNat 8 p.length) p }]) := by
    simp [Progress.feed, Progress.step, startByte, endByte]
  rw [hbytes, ← hcsum, ← feed_length_payload c hp]
  rfl

/-- Settles O23: from Idle the registers stand for nothing received, and the frame's bytes give the frame and Idle. -/
theorem receptionOfEncodedFrame : Obligations.ReceptionOfEncodedFrame := by
  intro r c p hw h hp
  have hfeed := (progress_feed_of_idle hw h (wireFrame c p)).symm.trans (feed_wireFrame c hp)
  obtain ⟨hidle, hevents⟩ := Prod.mk.inj hfeed
  refine ⟨hevents, ?_⟩
  cases hst : (rxFeed r (wireFrame c p)).1.state <;> simp [progress, hst] at hidle ⊢

end Sys2Proof.Proofs
end

section
namespace Sys2Proof.Proofs

open Machine

/-! ## How many bytes until Idle (R84) -/

/-- The payload bytes of a frame, one after another: Data until the declared length has come, then Checksum. -/
theorem rxFeed_data_state_of_le {r : Rx} {xs : List Byte} (h : r.state = .data) (hi : r.idx.toNat < r.len.toNat)
    (h64 : r.len.toNat ≤ 64) (hl : r.idx.toNat + xs.length ≤ r.len.toNat) :
    (rxFeed r xs).1.state = if r.idx.toNat + xs.length < r.len.toNat then .data else .checksum := by
  by_cases hlt : r.idx.toNat + xs.length < r.len.toNat
  · rw [if_pos hlt]
    induction xs generalizing r with
    | nil => exact h
    | cons b xs ih =>
      rw [List.length_cons] at hl hlt
      have hidx : (rxOnDataMore r b).idx.toNat = r.idx.toNat + 1 := rxStore_idx_toNat (by omega) b
      have hlen : (rxOnDataMore r b).len.toNat = r.len.toNat := rfl
      rw [rxFeed_cons_fst, rxStep_data_more h (by omega)]
      exact ih (r := rxOnDataMore r b) rfl (by omega) h64 (by omega) (by omega)
  · rw [if_neg hlt]
    have hne : xs ≠ [] := by
      rintro rfl
      rw [List.length_nil] at hlt
      omega
    exact rxFeed_data_state h hne (by omega) h64

/-- After a length byte of at most 64 the receiver takes that many bytes to reach Checksum. -/
theorem rxFeed_length_state {r : Rx} (h : r.state = .length) {l : Byte} (hl : l.toNat ≤ 64) {xs : List Byte}
    (hxs : xs.length ≤ l.toNat) :
    (rxFeed r (l :: xs)).1.state = if xs.length < l.toNat then .data else .checksum := by
  rw [rxFeed_cons_fst]
  by_cases hzero : l = 0
  · subst hzero
    obtain rfl : xs = [] := List.length_eq_zero_iff.mp (Nat.le_zero.mp hxs)
    rw [rxStep_length_zero h]
    rfl
  · have hpos : 1 ≤ l.toNat := Nat.one_le_iff_ne_zero.mpr fun h0 => hzero (BitVec.eq_of_toNat_eq h0)
    have hidx : (rxOnLenData r l).idx.toNat = 0 := rfl
    have hlen : (rxOnLenData r l).len = l := rfl
    rw [rxStep_length_data h hpos hl]
    have hstate := rxFeed_data_state_of_le (r := rxOnLenData r l) (xs := xs) rfl (by rw [hidx, hlen]; omega) hl
      (by rw [hidx, hlen]; omega)
    rwa [hidx, hlen, Nat.zero_add] at hstate

/-- Settles O24: with a length byte of at most 64, Data and Checksum take `L + 1` bytes more, and Idle comes with the
last. -/
theorem returnToIdleTakesDeclaredLength : Obligations.ReturnToIdleTakesDeclaredLength := by
  intro r c l bs h
  have hcmd : (rxStep r c).1.state = .length := by rw [rxStep_cmd h]; rfl
  refine ⟨fun hl => ⟨?_, ?_⟩, fun hl hbs => ⟨?_, fun n hn => ?_⟩⟩
  · rw [rxFeed_cons_fst]
    exact fun h0 => nomatch hcmd.symm.trans h0
  · rw [rxFeed_cons_fst, rxFeed_cons_fst, rxStep_length_over hcmd hl]
    rfl
  · obtain ⟨p, k, rfl⟩ : ∃ p k, bs = p ++ [k] :=
      ⟨_, _, (List.dropLast_append_getLast (List.ne_nil_of_length_eq_add_one hbs)).symm⟩
    rw [List.length_append, List.length_singleton] at hbs
    have hstate := rxFeed_length_state hcmd hl (xs := p) (by omega)
    rw [if_neg (by omega)] at hstate
    rw [rxFeed_cons_fst, ← List.cons_append, rxFeed_append_fst, rxFeed_cons_fst, rxStep_checksum_fst hstate]
    rfl
  · match n with
    | 0 => exact fun h0 => nomatch h.symm.trans h0
    | 1 =>
      rw [List.take_succ_cons, List.take_zero, rxFeed_cons_fst]
      exact fun h0 => nomatch hcmd.symm.trans h0
    | n + 2 =>
      have hle : (bs.take n).length ≤ l.toNat := by rw [List.length_take]; omega
      rw [List.take_succ_cons, List.take_succ_cons, rxFeed_cons_fst, rxFeed_length_state hcmd hl hle]
      split <;> nofun

/-- Refutes O26: from Cmd, a length byte of 64 and 64 payload bytes, 66 in all, leave the receiver in Checksum. -/
theorem not_idleWithinSixtySixBytes : ¬ Obligations.IdleWithinSixtySixBytes := by
  intro h
  have hinv : RxInv { Rx.reset with state := .cmd } := rxInv_of_idle_or_cmd rfl (.inr rfl)
  obtain ⟨n, hn, hidle⟩ := h _ (0x00 :: 0x40 :: List.replicate 64 0x01) hinv rfl
  obtain ⟨-, hnever⟩ := returnToIdleTakesDeclaredLength { Rx.reset with state := .cmd } 0x00 0x40
    (List.replicate 65 0x01) rfl |>.2 (by decide) rfl
  have htake : (0x00 :: 0x40 :: List.replicate 65 (0x01 : Byte)).take n =
      (0x00 :: 0x40 :: List.replicate 64 0x01).take n :=
    List.take_append_of_le_length (l₁ := 0x00 :: 0x40 :: List.replicate 64 0x01) (l₂ := [0x01]) hn
  exact hnever n (Nat.lt_succ_of_le hn) (htake ▸ hidle)

/-- The most bytes that the receiver still takes before Idle. -/
def bytesToIdle (r : Rx) : Nat :=
  match r.state with
  | .idle => 0
  | .cmd => 67
  | .length => 66
  | .data => r.len.toNat - r.idx.toNat + 1
  | .checksum => 1

theorem bytesToIdle_le {r : Rx} (hr : RxInv r) : bytesToIdle r ≤ 67 := by
  obtain ⟨-, -, hdata, -⟩ := hr
  cases h : r.state with
  | data =>
    obtain ⟨-, hle, -, -⟩ := hdata h
    have h64 : r.len.toNat ≤ 64 := hle
    simp only [bytesToIdle, h]
    omega
  | _ => simp [bytesToIdle, h]

/-- Outside Idle every byte brings the receiver closer to it. -/
theorem bytesToIdle_rxStep_lt {r : Rx} (hr : RxInv r) (h : r.state ≠ .idle) (b : Byte) :
    bytesToIdle (rxStep r b).1 < bytesToIdle r := by
  obtain ⟨-, -, hdata, -⟩ := hr
  obtain ⟨hst, -, -⟩ | ⟨hst, -, -⟩ | ⟨hst, hs⟩ | ⟨hst, -, hs⟩ | ⟨hst, -, hs⟩ | ⟨hst, ⟨-, hle⟩, hs⟩ |
    ⟨hst, hmore, hs⟩ | ⟨hst, -, hs⟩ | ⟨hst, -, hs⟩ | ⟨hst, -, hs⟩ := rxStep_cases r b
  · contradiction
  · contradiction
  all_goals rw [hs]
  · simp [bytesToIdle, hst, rxOnCmd]
  · simp [bytesToIdle, hst, rxOnLenOver]
  · simp [bytesToIdle, hst, rxOnLenZero]
  · simp [bytesToIdle, hst, rxOnLenData]
    omega
  · obtain ⟨-, hle, hidx, -⟩ := hdata hst
    have hafter : bytesToIdle (rxOnDataMore r b) = r.len.toNat - (r.idx.toNat + 1) + 1 :=
      congrArg (r.len.toNat - · + 1) (rxStore_idx_toNat (hidx.trans_le hle) b)
    have hbefore : bytesToIdle r = r.len.toNat - r.idx.toNat + 1 := by simp [bytesToIdle, hst]
    exact hafter.trans_lt (by omega)
  · obtain ⟨-, -, hidx, -⟩ := hdata hst
    simp [bytesToIdle, hst, rxOnDataLast]
    omega
  · simp [bytesToIdle, hst, rxOnCsum]
  · simp [bytesToIdle, hst, rxOnCsum]

/-- As many bytes as the receiver still takes bring it to Idle at some point among them. -/
theorem exists_take_idle {r : Rx} {bs : List Byte} (hr : RxInv r) (hbs : bytesToIdle r ≤ bs.length) :
    ∃ n, n ≤ bs.length ∧ (rxFeed r (bs.take n)).1.state = .idle := by
  induction bs generalizing r with
  | nil =>
    refine ⟨0, Nat.le_refl _, ?_⟩
    cases h : r.state <;> simp [bytesToIdle, h] at hbs
    exact h
  | cons b bs ih =>
    by_cases h : r.state = .idle
    · exact ⟨0, Nat.zero_le _, h⟩
    · have hlt := bytesToIdle_rxStep_lt hr h b
      rw [List.length_cons] at hbs
      obtain ⟨n, hn, hidle⟩ := ih (rxStep_keeps_rxInv hr b) (by omega)
      exact ⟨n + 1, Nat.succ_le_succ hn, hidle⟩

/-- Settles O25: the bound is 67 in every state of the invariant. -/
theorem idleWithinSixtySevenBytes : Obligations.IdleWithinSixtySevenBytes := by
  intro r bs hr hbs
  obtain ⟨n, hn, hidle⟩ := exists_take_idle hr (bs := bs) (by rw [hbs]; exact bytesToIdle_le hr)
  exact ⟨n, hbs ▸ hn, hidle⟩

/-! ## How many events (R86) -/

/-- The bytes of the current frame that the receiver has surely taken. -/
def bytesTaken : RxState → Nat
  | .idle => 0
  | .cmd => 1
  | .length => 2
  | .data => 3
  | .checksum => 3

/-- An event uses up four bytes: the one that raises it and three before it. -/
theorem bytesTaken_rxStep (r : Rx) (b : Byte) :
    bytesTaken (rxStep r b).1.state + (if (rxStep r b).2 = .noEvent then 0 else 4) ≤ bytesTaken r.state + 1 := by
  obtain ⟨hst, -, hs⟩ | ⟨hst, -, hs⟩ | ⟨hst, hs⟩ | ⟨hst, -, hs⟩ | ⟨hst, -, hs⟩ | ⟨hst, -, hs⟩ | ⟨hst, -, hs⟩ |
    ⟨hst, -, hs⟩ | ⟨hst, -, hs⟩ | ⟨hst, -, hs⟩ := rxStep_cases r b <;> rw [hst, hs] <;>
    simp [bytesTaken, rxOnIdleStart, rxOnIdleSkip, rxOnCmd, rxOnLenOver, rxOnLenZero, rxOnLenData, rxOnDataMore,
      rxOnDataLast, rxOnCsum]

theorem four_mul_events_le (r : Rx) (bs : List Byte) :
    4 * (rxFeed r bs).2.length + bytesTaken (rxFeed r bs).1.state ≤ bs.length + bytesTaken r.state := by
  induction bs generalizing r with
  | nil => simp [rxFeed]
  | cons b bs ih =>
    have hstep := bytesTaken_rxStep r b
    have hrest := ih (rxStep r b).1
    rw [rxFeed_cons_fst, rxFeed_cons_snd, List.length_cons]
    split at hstep
    · rw [if_pos ‹_›]
      omega
    · rw [if_neg ‹_›, List.length_cons]
      omega

/-- Settles O27: in Idle no byte of a frame has been taken. -/
theorem atMostOneEventPerFourBytes : Obligations.AtMostOneEventPerFourBytes := by
  intro r bs h
  have hcount := four_mul_events_le r bs
  have hzero : bytesTaken r.state = 0 := by rw [h]; rfl
  omega

/-! ## Selection, and what the receiver operations change (R64, R70) -/

/-- The pure checksum function, written over the cells that hold the payload. -/
theorem checksum_readPayload (c l : Byte) (m : Memory) (n : Nat) :
    checksum c l (readPayload m n) =
      BitVec.ofNat 8 (c.toNat + l.toNat + ((List.range n).map fun a => (readCell m a).toNat).sum) := by
  rw [checksum, byteSum_eq_sum_map, readPayload, List.map_map]
  rfl

/-- Settles O9: state by state; in Checksum the accumulator holds the pure function's value. -/
theorem selectionIsThatOfTheStepFunction : Obligations.SelectionIsThatOfTheStepFunction := by
  intro r b hr
  cases h : r.state with
  | idle => exact receiveInstr_idle h b
  | cmd => exact receiveInstr_cmd h b
  | length => exact receiveInstr_length h b
  | data => exact receiveInstr_data h b
  | checksum =>
    rw [receiveInstr_checksum hr h, checksum_readPayload]

/-- A write above index 63 is no write (D26). -/
theorem writeBuf_of_le {i : Nat} (hi : 64 ≤ i) (m : Memory) (v : Byte) : writeBuf m i v = m :=
  if_neg (Nat.not_lt.mpr hi)

/-- Settles O18: without the write, a store is the index and the accumulator. -/
theorem writeAboveSixtyThreeIsNoWrite : Obligations.WriteAboveSixtyThreeIsNoWrite := by
  intro s b hi
  have hstore : rxStore s.rx b =
      { s.rx with idx := s.rx.idx + 1, acc := BitVec.ofNat 8 (s.rx.acc.toNat + b.toNat) } := by
    rw [rxStore, writeBuf_of_le hi]
    rfl
  exact ⟨congrArg (fun r : Rx => Host.Outcome.next (s.withRx { r with state := .data })) hstore,
    congrArg (fun r : Rx => Host.Outcome.next (s.withRx { r with state := .checksum })) hstore⟩

/-- Every cell but the one at `rx_idx` reads as before. -/
theorem readCell_rxStore_of_ne {r : Rx} (hw : r.buf.wf = true) (b : Byte) {a : Nat} (ha : a ≠ r.idx.toNat) :
    readCell (rxStore r b).buf a = readCell r.buf a := by
  have hcell : readCell (rxStore r b).buf a =
      if r.idx.toNat = a ∧ r.idx.toNat < maxPayload then b else readCell r.buf a := readCell_writeBuf hw
  rw [hcell, if_neg fun h => ha h.1.symm]

/-- Settles O21: each of the eight operations is a change of the receiver's registers, and only the two Data operations
store a byte. -/
theorem receiverOperationsFrame : Obligations.ReceiverOperationsFrame := by
  intro s t i b hi hw ht
  simp only [List.mem_cons, List.not_mem_nil, or_false] at hi
  obtain rfl | rfl | rfl | rfl | rfl | rfl | rfl | rfl := hi <;> cases ht
  case inr.inr.inr.inr.inr.inr.inl =>
    exact ⟨rfl, rfl, fun a ha => readCell_rxStore_of_ne hw b (ha (.inl rfl))⟩
  case inr.inr.inr.inr.inr.inr.inr =>
    exact ⟨rfl, rfl, fun a ha => readCell_rxStore_of_ne hw b (ha (.inr rfl))⟩
  all_goals exact ⟨rfl, rfl, fun _ _ => rfl⟩

end Sys2Proof.Proofs
end

section
namespace Sys2Proof.Proofs

open Machine

/-! ## The encoder's invariant (R21, R110) -/

/-- An accepted request meets the encoder's invariant. -/
theorem txInv_acceptSend (t : Tx) (c : Byte) {p : List Byte} (hp : p.length ≤ 64) : TxInv (acceptSend t c p) := by
  refine ⟨fun _ => ⟨toNat_ofNat_length hp, hp⟩, fun _ => rfl, nofun, nofun, nofun⟩

theorem txInv_of_idle {t : Tx} (h : t.state = .idle) : TxInv t := by
  simp [TxInv, h]

/-- TX.BYTE.START keeps the encoder's invariant. -/
theorem txInv_byteStart {t : Tx} (h : t.state = .start) (ht : TxInv t) : TxInv { t with state := .cmd } := by
  obtain ⟨hlen, hidx, -, -, -⟩ := ht
  exact ⟨fun _ => hlen (by simp [h]), fun _ => hidx (.inl h), nofun, nofun, nofun⟩

/-- The encoder's registers after TX.BYTE.CMD. -/
def cmdNext (t : Tx) : Tx :=
  { t with acc := t.cmd, state := .len }

theorem txInv_cmdNext {t : Tx} (h : t.state = .cmd) (ht : TxInv t) : TxInv (cmdNext t) := by
  obtain ⟨hlen, hidx, -, -, -⟩ := ht
  exact ⟨fun _ => hlen (by simp [h]), fun _ => hidx (.inr (.inl h)), fun _ => rfl, nofun, nofun⟩

/-- The encoder's registers after TX.BYTE.LEN. -/
def lenNext (t : Tx) : Tx :=
  { t with acc := accumulate t.acc t.len, state := if 0 < t.len.toNat then .data else .csum }

theorem txInv_lenNext {t : Tx} (h : t.state = .len) (ht : TxInv t) : TxInv (lenNext t) := by
  obtain ⟨hlen, hidx, hacc, -, -⟩ := ht
  obtain ⟨hlen, hmax⟩ := hlen (by simp [h])
  have hidx : t.idx = 0 := hidx (.inr (.inr h))
  have hacc : accumulate t.acc t.len = checksum t.cmd t.len [] := by rw [checksum_nil, hacc h]
  unfold lenNext
  by_cases hpos : 0 < t.len.toNat
  · rw [if_pos hpos]
    refine ⟨fun _ => ⟨hlen, hmax⟩, nofun, nofun, fun _ => ⟨?_, ?_⟩, nofun⟩
    · rw [hidx]
      exact hpos
    · rw [hidx]
      exact hacc
  · rw [if_neg hpos]
    refine ⟨fun _ => ⟨hlen, hmax⟩, nofun, nofun, nofun, fun _ => ?_⟩
    have hnil : t.payload = [] := List.length_eq_zero_iff.mp (by omega)
    rw [hnil]
    exact hacc

/-- The payload byte that TX.BYTE.DATA writes is the next one (R110). -/
theorem take_concat_txPayloadByte {t : Tx} (h : t.idx.toNat < t.payload.length) :
    t.payload.take t.idx.toNat ++ [txPayloadByte t] = t.payload.take (t.idx.toNat + 1) := by
  rw [txPayloadByte, List.getD_eq_getElem _ _ h, List.take_concat_get' _ _ h]

/-- The encoder's registers after TX.BYTE.DATA. -/
def dataNext (t : Tx) : Tx :=
  { t with
    acc := accumulate t.acc (txPayloadByte t), idx := t.idx + 1
    state := if t.idx.toNat + 1 = t.len.toNat then .csum else .data }

/-- In TxData the index is inside the payload and does not wrap. -/
theorem dataNext_idx_toNat {t : Tx} (h : t.state = .data) (ht : TxInv t) :
    (dataNext t).idx.toNat = t.idx.toNat + 1 := by
  obtain ⟨hlen, -, -, hdata, -⟩ := ht
  obtain ⟨hlen, hmax⟩ := hlen (by simp [h])
  obtain ⟨hidx, -⟩ := hdata h
  have hlt : t.idx.toNat < 64 := hidx.trans_le (hlen.trans_le hmax)
  exact BitVec.toNat_add_of_lt (y := 1#8) (Nat.lt_of_lt_of_le (Nat.succ_lt_succ hlt) (by decide))

theorem txInv_dataNext {t : Tx} (h : t.state = .data) (ht : TxInv t) : TxInv (dataNext t) := by
  have hnext := dataNext_idx_toNat h ht
  obtain ⟨hlen, -, -, hdata, -⟩ := ht
  obtain ⟨hlen, hmax⟩ := hlen (by simp [h])
  obtain ⟨hidx, hacc⟩ := hdata h
  have hacc : accumulate t.acc (txPayloadByte t) = checksum t.cmd t.len (t.payload.take (t.idx.toNat + 1)) := by
    rw [← take_concat_txPayloadByte (hlen ▸ hidx), checksum_concat, hacc]
  unfold dataNext at hnext ⊢
  by_cases hlast : t.idx.toNat + 1 = t.len.toNat
  · rw [if_pos hlast]
    refine ⟨fun _ => ⟨hlen, hmax⟩, nofun, nofun, nofun, fun _ => hacc.trans ?_⟩
    rw [List.take_of_length_le (by omega)]
  · rw [if_neg hlast]
    refine ⟨fun _ => ⟨hlen, hmax⟩, nofun, nofun, fun _ => ⟨?_, ?_⟩, nofun⟩
    · exact hnext.trans_lt (Nat.lt_of_le_of_ne hidx hlast)
    · exact hacc.trans (by rw [← hnext])

/-- TX.BYTE.DATA writes the first of the bytes still missing. -/
theorem drop_idx_eq_cons {t : Tx} (h : t.state = .data) (ht : TxInv t) :
    t.payload.drop t.idx.toNat = txPayloadByte t :: t.payload.drop (dataNext t).idx.toNat := by
  rw [dataNext_idx_toNat h ht]
  obtain ⟨hlen, -, -, hdata, -⟩ := ht
  obtain ⟨hlen, -⟩ := hlen (by simp [h])
  obtain ⟨hidx, -⟩ := hdata h
  have hlt : t.idx.toNat < t.payload.length := hlen ▸ hidx
  rw [List.drop_eq_getElem_cons hlt, txPayloadByte, List.getD_eq_getElem _ _ hlt]

/-- After the last payload byte the encoder is in TxCsum, before it in TxData. -/
theorem dataNext_state {t : Tx} (h : t.state = .data) (ht : TxInv t) :
    (dataNext t).state = if t.payload.drop (dataNext t).idx.toNat = [] then .csum else .data := by
  rw [dataNext_idx_toNat h ht]
  obtain ⟨hlen, -, -, hdata, -⟩ := ht
  obtain ⟨hlen, -⟩ := hlen (by simp [h])
  obtain ⟨hidx, -⟩ := hdata h
  have hiff : t.payload.drop (t.idx.toNat + 1) = [] ↔ t.idx.toNat + 1 = t.len.toNat := by
    rw [List.drop_eq_nil_iff, ← hlen]
    omega
  rw [dataNext]
  simp only [hiff]

theorem txInv_byteCsum {t : Tx} (h : t.state = .csum) (ht : TxInv t) : TxInv { t with state := .fin } := by
  obtain ⟨hlen, -, -, -, -⟩ := ht
  exact ⟨fun _ => hlen (by simp [h]), nofun, nofun, nofun, nofun⟩

/-! ## What the environment's and the encoder's work can do, said once -/

/-- No delivered frame is among what is seen. -/
def NoFrame (o : List Obs) : Prop :=
  o.filterMap seenFrame = []

theorem NoFrame.append {o o' : List Obs} (h : NoFrame o) (h' : NoFrame o') : NoFrame (o ++ o') := by
  rw [NoFrame, List.filterMap_append, h, h', List.nil_append]

theorem noFrame_sendObs (c : Byte) (p : List Byte) : NoFrame (sendObs c p) := by
  unfold NoFrame sendObs
  split
  · rw [List.filterMap_append, filterMap_seenFrame_map_tx]
    rfl
  · rfl

theorem noFrame_flatMap_requestObs (P : Params) (rs : List Request) : NoFrame (rs.flatMap (requestObs P)) := by
  induction rs with
  | nil => rfl
  | cons r rs ih => exact (noFrame_sendObs _ _).append ih

theorem noFrame_callObs (P : Params) (h : Handler) (e : HandlerRun) : NoFrame (callObs P h e) :=
  NoFrame.append (o := [.call h]) rfl (noFrame_flatMap_requestObs P e.sends)

/-- What a send, a handler call, a dispatch or a byte step can do: something is seen, and then nothing else, or the
dispatch never returns, or the encoder's registers change, or work is left. -/
inductive Works (s : State) : State → Prop where
  | seen (l : List HandlerRun) {o : List Obs} (ho : NoFrame o) : Works s ((s.withHandlers l).emit o)
  | hangs (l : List HandlerRun) {o : List Obs} (ho : NoFrame o) : Works s (hang ((s.withHandlers l).emit o))
  | encodes (t : Tx) {o : List Obs} (ho : NoFrame o) (ht : TxInv s.tx → TxInv t) : Works s ((s.emit o).withTx t)
  | leaves (l : List HandlerRun) {o : List Obs} (ho : NoFrame o) (as : List Action) :
      Works s (((s.withHandlers l).emit o).withAgenda as)

theorem Works.keeps {s t : State} (h : Works s t) : Keeps s t := by
  cases h with
  | seen l => exact (keeps_withHandlers s l).trans (keeps_emit _ _)
  | hangs l => exact ((keeps_withHandlers s l).trans (keeps_emit _ _)).trans (keeps_hang _)
  | encodes t => exact (keeps_emit s _).trans (keeps_withTx _ _)
  | leaves l _ as => exact ((keeps_withHandlers s l).trans (keeps_emit _ _)).trans (keeps_withAgenda _ _)

/-- A dispatch that never returns stays in progress. -/
theorem Works.hung {s t : State} (h : Works s t) (hs : s.hung = true) : t.hung = true := by
  cases h with
  | hangs => rfl
  | _ => exact hs

/-- A dispatch that came never to return leaves nothing. -/
theorem Works.agenda_eq_nil {s t : State} (h : Works s t) (hs : s.hung = false) (ht : t.hung = true) :
    t.agenda = [] := by
  cases h with
  | hangs => rfl
  | _ => exact nomatch hs.symm.trans ht

theorem Works.framesOut {s t : State} (h : Works s t) : t.framesOut = s.framesOut := by
  have hemit (u : State) {o : List Obs} (ho : NoFrame o) : (u.emit o).framesOut = u.framesOut := by
    rw [State.emit_framesOut, ho, List.append_nil]
  cases h with
  | seen l ho => exact hemit (s.withHandlers l) ho
  | hangs l ho => exact hemit (s.withHandlers l) ho
  | encodes t ho => exact hemit s ho
  | leaves l ho => exact hemit (s.withHandlers l) ho

theorem Works.txInv {s t : State} (h : Works s t) (hs : TxInv s.tx) : TxInv t.tx := by
  cases h with
  | encodes t _ ht => exact ht hs
  | _ => exact hs

theorem works_emit (s : State) {o : List Obs} (ho : NoFrame o) : Works s (s.emit o) :=
  .seen s.handlers ho

theorem works_withTx {s : State} {t : Tx} (ht : TxInv s.tx → TxInv t) : Works s (s.withTx t) := by
  have h := Works.encodes t (o := []) rfl ht
  rwa [State.emit_nil] at h

theorem works_withAgenda (s : State) (as : List Action) : Works s (s.withAgenda as) := by
  have h := Works.leaves (s := s) s.handlers (o := []) rfl as
  rw [State.emit_nil] at h
  exact h

theorem works_hang (s : State) : Works s (hang s) := by
  have h := Works.hangs (s := s) s.handlers (o := []) rfl
  rw [State.emit_nil] at h
  exact h

theorem works_refl (s : State) : Works s s := by
  have h := works_emit s (o := []) rfl
  rwa [State.emit_nil] at h

theorem works_sendRequest (r : Request) (s : State) : Works s (sendRequest r s) := by
  unfold sendRequest
  obtain ⟨-, h⟩ | ⟨-, ha, -⟩ | ⟨hp, -, -, h⟩ | ⟨-, -, h⟩ :=
    send_cases (requestCode s.params r) (requestPayload s.params r) s
  · exact h ▸ works_emit s rfl
  · exact send_of_atomic ha _ _ ▸ works_emit s (noFrame_sendObs _ _)
  · exact h ▸ works_withTx fun _ => txInv_acceptSend _ _ hp
  · exact h ▸ works_withAgenda s _

/-- An idle encoder leaves a request to no later step. -/
theorem sendRequest_agenda {s : State} (h : s.tx.state = .idle) (r : Request) :
    (sendRequest r s).agenda = s.agenda := by
  unfold sendRequest
  obtain ⟨-, hs⟩ | ⟨-, -, hs⟩ | ⟨-, -, -, hs⟩ | ⟨-, hne, -⟩ :=
    send_cases (requestCode s.params r) (requestPayload s.params r) s
  · rw [hs]; rfl
  · rw [hs]; rfl
  · rw [hs]; rfl
  · contradiction

/-- One action where sends are one step: it is seen, and never returns or is over. -/
theorem perform_of_atomic {s : State} (ha : atomic s = true) (a : Action) :
    ∃ l o, NoFrame o ∧
      perform a s = if blocks a s then hang ((s.withHandlers l).emit o) else (s.withHandlers l).emit o := by
  cases a with
  | call h => exact ⟨s.handlers.tail, callObs s.params h (nextRun s), noFrame_callObs _ _ _, callHandler_of_atomic ha h⟩
  | send r => exact ⟨s.handlers, requestObs s.params r, noFrame_sendObs _ _, sendRequest_of_atomic ha r⟩
  | wait w => exact ⟨s.handlers, [.wait w], rfl, rfl⟩
  | hang => exact ⟨s.handlers, [], rfl, by rw [State.emit_nil]; rfl⟩
  | done => exact ⟨s.handlers, [], rfl, by rw [State.emit_nil]; rfl⟩

/-- Actions where sends are one step: something is seen, and the last one never returns or all are over. -/
theorem runActions_of_atomic {s : State} (ha : atomic s = true) (as : List Action) :
    ∃ l o, NoFrame o ∧ (runActions as s = hang ((s.withHandlers l).emit o) ∨
      runActions as s = (s.withHandlers l).emit o) := by
  induction as generalizing s with
  | nil => exact ⟨s.handlers, [], rfl, .inr (by rw [State.emit_nil]; rfl)⟩
  | cons a as ih =>
    obtain ⟨l, o, ho, hperform⟩ := perform_of_atomic ha a
    rw [runActions]
    cases hb : blocks a s
    · rw [hb] at hperform
      obtain ⟨l', o', ho', hrest⟩ := ih (s := (s.withHandlers l).emit o) ha
      have hmerge : (((s.withHandlers l).emit o).withHandlers l').emit o' = (s.withHandlers l').emit (o ++ o') :=
        State.emit_emit (s.withHandlers l') o o'
      rw [hmerge] at hrest
      exact ⟨l', o ++ o', ho.append ho', hperform ▸ hrest⟩
    · rw [hb] at hperform
      exact ⟨l, o, ho, .inl hperform⟩

theorem works_dispatch (as : List Action) (s : State) : Works s (dispatch as s) := by
  cases ha : atomic s
  · rw [dispatch_of_not_atomic ha]
    exact works_withAgenda s _
  · rw [dispatch_of_atomic ha]
    obtain ⟨l, o, ho, h | h⟩ := runActions_of_atomic ha as
    · exact h ▸ .hangs l ho
    · exact h ▸ .seen l ho

theorem works_perform (a : Action) (s : State) : Works s (perform a s) := by
  cases ha : atomic s
  · cases a with
    | call h =>
      have hcalled : atomic ((s.emit [.call h]).withHandlers s.handlers.tail) = false := ha
      rw [perform, callHandler, if_neg (by rw [hcalled]; nofun)]
      exact .leaves s.handlers.tail (o := [.call h]) rfl _
    | send r => exact works_sendRequest r s
    | wait w => exact works_emit s rfl
    | hang => exact works_hang s
    | done => exact works_refl s
  · obtain ⟨l, o, ho, h⟩ := perform_of_atomic ha a
    rw [h]
    split
    · exact .hangs l ho
    · exact .seen l ho

end Sys2Proof.Proofs
end

section
namespace Sys2Proof.Proofs

open Machine

/-! ## What a step can be, said once (R6) -/

/-- A request's operation hands the request to the encoder, one of more than 64 bytes included (R100 to R104). -/
theorem exec_requestInstr (r : Request) (s : State) : exec (requestInstr r) s = .next (sendRequest r s) := by
  cases r with
  | send c p =>
    by_cases hp : 64 < p.length
    · rw [requestInstr_send_of_lt hp, exec_txSendRefuse]
      exact congrArg Host.Outcome.next (send_of_lt hp c s).symm
    · rw [requestInstr_send_of_le (Nat.not_lt.mp hp)]
      rfl
  | ack => rfl
  | nack => rfl
  | response r => cases r <;> rfl

/-- A byte step is seen as one byte, with success at END, and keeps the encoder's invariant (R110). -/
theorem exec_txInstr {s : State} {i : Instr} (hi : txInstr s.tx.state = some i) :
    ∃ o t, exec i s = .next ((s.emit o).withTx t) ∧ NoFrame o ∧ (TxInv s.tx → TxInv t) := by
  cases h : s.tx.state <;> rw [h] at hi <;> cases hi
  case start => exact ⟨_, _, rfl, rfl, txInv_byteStart h⟩
  case cmd => exact ⟨_, _, rfl, rfl, txInv_cmdNext h⟩
  case len => exact ⟨_, _, rfl, rfl, txInv_lenNext h⟩
  case data => exact ⟨_, _, rfl, rfl, txInv_dataNext h⟩
  case csum => exact ⟨_, _, rfl, rfl, txInv_byteCsum h⟩
  case fin =>
    refine ⟨[.tx endByte, .sendResult true], { s.tx with state := .idle }, ?_, rfl, fun _ => txInv_of_idle rfl⟩
    exact congrArg (fun u : State => Host.Outcome.next (u.withTx _))
      (State.emit_emit s [.tx endByte] [.sendResult true])

/-- What a step can do at a state whose input, if it took one, is taken: wait, accept a request, take the frame from the
FRAME port, write a byte, do an action. -/
inductive Advance (s : State) : State → Prop where
  | waits : Advance s s
  | accepts (r : Request) (h : sendReady s = true) : Advance s (sendRequest r s)
  | takes {f : Frame} (hf : s.frame = some f) :
      Advance s (dispatch (commandActions s.params (classify s.params f.cmd) f.payload) (s.withFrame none))
  | writes {o : List Obs} {t : Tx} (hf : s.frame = none) (hsink : s.sinkReady = true) (htx : s.tx.state ≠ .idle)
      (ho : NoFrame o) (ht : TxInv s.tx → TxInv t) : Advance s ((s.emit o).withTx t)
  | acts {a : Action} {rest : List Action} (hf : s.frame = none) (htx : s.tx.state = .idle)
      (ha : s.agenda = a :: rest) : Advance s (perform a (s.withAgenda rest))

/-- What a turn comes to. -/
def turnOutcome : Turn → Host.Outcome State Fault Refusal
  | .run i t => exec i t
  | .env t => .next t

theorem step_eq_turnOutcome (s : State) : step s = turnOutcome (turn s) := by
  unfold step
  cases turn s <;> rfl

theorem advance_work {s : State} {t : Turn} (h : work s = some t) : ∃ u, turnOutcome t = .next u ∧ Advance s u := by
  obtain ⟨f, hf, rfl⟩ | ⟨hf, hsink, i, hi, rfl⟩ | ⟨hf, htx, a, rest, ha, ⟨r, rfl, rfl⟩ | ⟨-, rfl⟩⟩ := work_cases h
  · exact ⟨_, exec_commandInstr (s.withFrame none) f.cmd f.payload, .takes hf⟩
  · obtain ⟨o, t, hexec, ho, ht⟩ := exec_txInstr hi
    have htx : s.tx.state ≠ .idle := fun h => nomatch (h ▸ hi : txInstr .idle = some i)
    exact ⟨_, hexec, .writes hf hsink htx ho ht⟩
  · exact ⟨_, exec_requestInstr r _, .acts hf htx ha⟩
  · exact ⟨_, rfl, .acts hf htx ha⟩

theorem advance_workOrWait (s : State) : ∃ u, turnOutcome (workOrWait s) = .next u ∧ Advance s u := by
  obtain ⟨t, ht, hw⟩ | hw := workOrWait_cases s
  · rw [hw]
    exact advance_work ht
  · rw [hw]
    exact ⟨s, rfl, .waits⟩

/-- What a receiver step does with its event (R79, R80): a frame is delivered, a NACK is sent. -/
def react : RxEvent → State → State
  | .noEvent, s => s
  | .frameOut f, s => deliver f s
  | .nackOut, s => dispatch nackActions s

/-- The operation that a byte selects is `rx_step`: its registers, and then its event (R70). -/
theorem exec_receiveInstr (s : State) (b : Byte) :
    exec (receiveInstr s.rx b) s = .next (react (rxStep s.rx b).2 (s.withRx (rxStep s.rx b).1)) := by
  rw [receiveInstr_eq]
  obtain ⟨h, hb, hs⟩ | ⟨h, hb, hs⟩ | ⟨h, hs⟩ | ⟨h, hover, hs⟩ | ⟨h, hb, hs⟩ | ⟨h, ⟨hpos, hle⟩, hs⟩ |
    ⟨h, hmore, hs⟩ | ⟨h, hlast, hs⟩ | ⟨h, hb, hs⟩ | ⟨h, hb, hs⟩ := rxStep_cases s.rx b <;> rw [hs, h]
  · rw [selectReceive, if_pos hb]
    rfl
  · rw [selectReceive, if_neg hb]
    rfl
  · rfl
  · rw [selectReceive, if_pos ((lenOver_iff b).mpr hover)]
    rfl
  · rw [hb]
    rfl
  · have hover : ¬ lenOver b = true := fun h => absurd ((lenOver_iff b).mp h) (Nat.not_lt.mpr hle)
    have hzero : ¬ lenZero b = true := fun h => absurd hpos (by simp [(lenZero_iff b).mp h])
    rw [selectReceive, if_neg hover, if_neg hzero]
    rfl
  · have hmore : dataMore s.rx.idx s.rx.len = true := decide_eq_true hmore
    rw [selectReceive, if_pos hmore]
    rfl
  · rw [selectReceive, if_neg (by simpa [dataMore] using hlast)]
    rfl
  · have hmatch : csumMatch b s.rx.acc = true := beq_iff_eq.mpr hb
    rw [selectReceive, if_pos hmatch]
    rfl
  · rw [selectReceive, if_neg (by simpa [csumMatch] using hb)]
    rfl

/-- What the step can be: the reset, a byte received, a change of the sink, or an advance. -/
theorem step_cases (s : State) :
    (∃ rest, s.inputs = .reset :: rest ∧ step s = exec .resetAssert (s.withInputs rest)) ∨
    (∃ b rest, s.inputs = .rx b :: rest ∧ rxReady s = true ∧
      step s = .next (react (rxStep s.rx b).2 ((s.withInputs rest).withRx (rxStep s.rx b).1))) ∨
    (∃ ready rest, s.inputs = .sink ready :: rest ∧ step s = .next ((s.withInputs rest).withSink ready)) ∨
    (∃ rest t, Advance (s.withInputs rest) t ∧ step s = .next t) := by
  rw [step_eq_turnOutcome]
  obtain ⟨rest, hin, ht⟩ | ⟨ready, rest, hin, ht⟩ | ⟨b, rest, hin, hr, ht⟩ | ⟨r, rest, hin, hr, ht⟩ | ⟨rest, hin, ht⟩ |
    ⟨b, rest, hin, -, -, -, ht⟩ | ht := turn_cases s
  all_goals rw [ht]
  · exact .inl ⟨rest, hin, rfl⟩
  · exact .inr (.inr (.inl ⟨ready, rest, hin, rfl⟩))
  · exact .inr (.inl ⟨b, rest, hin, hr, exec_receiveInstr (s.withInputs rest) b⟩)
  · exact .inr (.inr (.inr ⟨rest, _, .accepts r hr, exec_requestInstr r _⟩))
  · obtain ⟨u, hu, hadv⟩ := advance_workOrWait (s.withInputs rest)
    exact .inr (.inr (.inr ⟨rest, u, hadv, hu⟩))
  · exact .inr (.inr (.inr ⟨rest, _, .waits, rfl⟩))
  · obtain ⟨u, hu, hadv⟩ := advance_workOrWait s
    exact .inr (.inr (.inr ⟨s.inputs, u, hadv, hu⟩))

/-! ## What every step keeps (R20, R33, R37, R70, R161) -/

theorem Advance.keeps {s t : State} (h : Advance s t) :
    t.rx = s.rx ∧ t.params = s.params ∧ s.trace <+: t.trace := by
  have hkeeps {u v : State} (hw : Works u v) : v.rx = u.rx ∧ v.params = u.params ∧ u.trace <+: v.trace :=
    ⟨hw.keeps.rx, hw.keeps.params, hw.keeps.trace⟩
  cases h with
  | waits => exact hkeeps (works_refl s)
  | accepts r => exact hkeeps (works_sendRequest r s)
  | takes => exact hkeeps (u := s.withFrame none) (works_dispatch _ _)
  | writes _ _ _ ho ht => exact hkeeps (.encodes _ ho ht)
  | @acts a rest => exact hkeeps (u := s.withAgenda rest) (works_perform a _)

theorem Advance.hung {s t : State} (h : Advance s t) (hs : s.hung = true) : t.hung = true := by
  cases h with
  | waits => exact hs
  | accepts r => exact (works_sendRequest r s).hung hs
  | takes => exact (works_dispatch _ (s.withFrame none)).hung hs
  | writes => exact hs
  | @acts a rest => exact (works_perform a (s.withAgenda rest)).hung hs

/-- With a frame half written and a sink that takes no byte there is nothing to do but wait (R166, D12). -/
theorem Advance.eq_of_stuck {s t : State} (h : Advance s t) (hf : s.frame = none) (htx : s.tx.state ≠ .idle)
    (hsink : s.sinkReady = false) : t = s := by
  cases h with
  | waits => rfl
  | accepts r hr =>
    obtain ⟨-, -, hidle⟩ := (sendReady_iff s).mp hr
    contradiction
  | takes hf' => exact nomatch hf.symm.trans hf'
  | writes _ hsink' => exact nomatch hsink.symm.trans hsink'
  | acts _ hidle => contradiction

/-- Where sends are not one step, a delivered frame is seen and waits at the FRAME port (R24). -/
theorem deliver_of_not_atomic {s : State} (ha : atomic s = false) (f : Frame) :
    deliver f s = (s.emit [.frameOut f]).withFrame (some f) := by
  obtain ⟨ha', -⟩ | ⟨-, h⟩ := deliver_cases f s
  · exact nomatch ha.symm.trans ha'
  · exact h

theorem deliver_keeps (f : Frame) (s : State) :
    (deliver f s).rx = s.rx ∧ (deliver f s).params = s.params ∧ (deliver f s).inputs = s.inputs ∧
      s.trace ++ [.frameOut f] <+: (deliver f s).trace := by
  cases ha : atomic s
  · rw [deliver_of_not_atomic ha]
    exact ⟨rfl, rfl, rfl, List.prefix_refl _⟩
  · rw [deliver_of_atomic ha]
    have h := keeps_dispatch (commandActions s.params (classify s.params f.cmd) f.payload) (s.emit [.frameOut f])
    exact ⟨h.rx, h.params, h.inputs, h.trace⟩

theorem react_keeps (e : RxEvent) (s : State) :
    (react e s).rx = s.rx ∧ (react e s).params = s.params ∧ (react e s).inputs = s.inputs ∧
      s.trace <+: (react e s).trace := by
  cases e with
  | noEvent => exact ⟨rfl, rfl, rfl, List.prefix_refl _⟩
  | frameOut f =>
    obtain ⟨hrx, hparams, hinputs, htrace⟩ := deliver_keeps f s
    exact ⟨hrx, hparams, hinputs, (List.prefix_append _ _).trans htrace⟩
  | nackOut =>
    have h := keeps_dispatch nackActions s
    exact ⟨h.rx, h.params, h.inputs, h.trace⟩

/-- The reset input runs RESET.ASSERT whatever else is in progress (R160). -/
theorem step_of_reset {s : State} {rest : List Input} (h : s.inputs = .reset :: rest) :
    step s = exec .resetAssert (s.withInputs rest) :=
  step_of_run (by simp [turn, h])

/-- Settles O33: an advance keeps the receiver, and an event does after the registers have changed. -/
theorem receiverChangesOnlyByByteOrReset : Obligations.ReceiverChangesOnlyByByteOrReset := by
  intro s t ht
  obtain ⟨rest, hin, -⟩ | ⟨b, rest, hin, hr, hs⟩ | ⟨ready, rest, -, hs⟩ | ⟨rest, u, hadv, hs⟩ := step_cases s
  · exact .inr (.inr ⟨rest, hin⟩)
  · cases hs.symm.trans ht
    exact .inr (.inl ⟨b, rest, hin, hr, (react_keeps _ _).1⟩)
  · cases hs.symm.trans ht
    exact .inl rfl
  · cases hs.symm.trans ht
    exact .inl hadv.keeps.1

/-- Settles O34: each kind of step keeps the parameters and only adds to the trace. -/
theorem stepKeepsParametersAndOutputs : Obligations.StepKeepsParametersAndOutputs := by
  intro s t ht
  obtain ⟨rest, -, hs⟩ | ⟨b, rest, -, -, hs⟩ | ⟨ready, rest, -, hs⟩ | ⟨rest, u, hadv, hs⟩ := step_cases s <;>
    cases hs.symm.trans ht
  · exact ⟨rfl, List.prefix_refl _⟩
  · obtain ⟨-, hparams, -, htrace⟩ :=
      react_keeps (rxStep s.rx b).2 ((s.withInputs rest).withRx (rxStep s.rx b).1)
    exact ⟨hparams, htrace⟩
  · exact ⟨rfl, List.prefix_refl _⟩
  · exact hadv.keeps.2

/-- Settles O35: a byte is accepted only where nothing is in progress, and a stuck sink leaves only waiting. -/
theorem stalledReceiverTakesNoByte : Obligations.StalledReceiverTakesNoByte := by
  intro s t hreset ht
  obtain ⟨rest, hin, -⟩ | ⟨b, rest, -, hr, -⟩ | ⟨ready, rest, hin, hs⟩ | ⟨rest, u, hadv, hs⟩ := step_cases s
  · exact absurd hin (hreset rest)
  · obtain ⟨hf, ha, htx, hh⟩ := (rxReady_iff s).mp hr
    exact ⟨by simp [hf, ha, htx, hh], fun _ h => absurd htx h⟩
  · cases hs.symm.trans ht
    exact ⟨fun _ => rfl, fun _ _ _ h => absurd hin (h ready rest)⟩
  · cases hs.symm.trans ht
    refine ⟨fun _ => hadv.keeps.1, fun hf htx hsink _ => ?_⟩
    rw [hadv.eq_of_stuck hf htx hsink]
    rfl

/-- Settles O36: nothing but the reset lowers `hung`, and a byte is not accepted while it is up. -/
theorem hungDispatchLastsUntilReset : Obligations.HungDispatchLastsUntilReset := by
  intro s t hh ht
  refine ⟨fun hreset => ?_, fun ⟨rest, hin⟩ => ?_⟩
  · obtain ⟨rest, hin, -⟩ | ⟨b, rest, -, hr, -⟩ | ⟨ready, rest, hin, hs⟩ | ⟨rest, u, hadv, hs⟩ := step_cases s
    · exact absurd hin (hreset rest)
    · obtain ⟨-, -, -, hh'⟩ := (rxReady_iff s).mp hr
      exact nomatch hh.symm.trans hh'
    · cases hs.symm.trans ht
      exact ⟨hh, rfl⟩
    · cases hs.symm.trans ht
      exact ⟨hadv.hung hh, hadv.keeps.1⟩
  · cases (step_of_reset hin).symm.trans ht
    exact ⟨rfl, rfl⟩

/-! ## The invariant (R83) -/

/-- Work keeps the invariant where no frame waits, unless it left something to a dispatch that never returns. -/
theorem Works.inv {s t : State} (h : Works s t) (hs : Inv s) (hf : s.frame = none)
    (ha : t.hung = true → t.agenda = []) : Inv t := by
  obtain ⟨hrx, htx, -, hseen, -⟩ := hs
  have hframe : t.frame = none := h.keeps.frame.trans hf
  refine ⟨h.keeps.rx ▸ hrx, h.txInv htx, ?_, h.framesOut ▸ hseen, ?_, ha⟩
  · simp [hframe]
  · exact fun hne => absurd hframe hne

/-- With no dispatch hanging, work keeps the invariant. -/
theorem Works.inv_of_not_hung {s t : State} (h : Works s t) (hs : Inv s) (hf : s.frame = none)
    (hh : s.hung = false) : Inv t :=
  h.inv hs hf (h.agenda_eq_nil hh)

/-- An advance keeps the invariant: a waiting frame or work left means that no dispatch hangs. -/
theorem Advance.inv {s t : State} (h : Advance s t) (hs : Inv s) : Inv t := by
  have hparts := hs
  obtain ⟨hrx, htx, -, hseen, hport, hagenda⟩ := hparts
  cases h with
  | waits => exact hs
  | accepts r hr =>
    obtain ⟨hf, ha, hidle⟩ := (sendReady_iff s).mp hr
    exact (works_sendRequest r s).inv hs hf fun _ => (sendRequest_agenda hidle r).trans ha
  | takes hf =>
    obtain ⟨-, hh, -⟩ := hport (by simp [hf])
    exact (works_dispatch _ (s.withFrame none)).inv_of_not_hung ⟨hrx, htx, nofun, hseen, nofun, hagenda⟩ rfl hh
  | writes hf _ _ ho ht => exact (Works.encodes _ ho ht).inv hs hf hagenda
  | @acts a rest hf _ ha =>
    have hh : s.hung = false := by
      cases hh : s.hung
      · rfl
      · exact nomatch ha.symm.trans (hagenda hh)
    have hrest : Inv (s.withAgenda rest) :=
      ⟨hrx, htx, by simp [hf], hseen, fun hne => absurd hf hne, fun hh' => nomatch hh.symm.trans hh'⟩
    exact (works_perform a _).inv_of_not_hung hrest hf hh

/-- The frame that a receiver step delivers is valid (R70, R93). -/
theorem frameValid_of_rxStep {r : Rx} (hr : RxInv r) {b : Byte} {f : Frame} (h : (rxStep r b).2 = .frameOut f) :
    FrameValid f := by
  obtain ⟨-, -, -, hsum⟩ := hr
  obtain ⟨-, -, hs⟩ | ⟨-, -, hs⟩ | ⟨-, hs⟩ | ⟨-, -, hs⟩ | ⟨-, -, hs⟩ | ⟨-, -, hs⟩ | ⟨-, -, hs⟩ | ⟨-, -, hs⟩ |
    ⟨hst, hb, hs⟩ | ⟨-, -, hs⟩ := rxStep_cases r b <;> rw [hs] at h <;> cases h
  obtain ⟨hle, hacc⟩ := hsum hst
  have hlen : (rxFrame r b).payload.length = r.len.toNat := readPayload_length _ _
  exact ⟨hlen.symm, hlen.trans_le hle, hb.trans hacc⟩

/-- Delivering a valid frame keeps the invariant where nothing is in progress. -/
theorem inv_deliver {f : Frame} {s : State} (hf : FrameValid f) (hs : Inv s) (hnone : s.frame = none)
    (ha : s.agenda = []) (htx : s.tx.state = .idle) (hh : s.hung = false) : Inv (deliver f s) := by
  obtain ⟨hrx, htx', hframe, hseen, hport⟩ := hs
  have hseen' : ∀ g ∈ (s.emit [.frameOut f]).framesOut, FrameValid g := by
    intro g hg
    rw [State.emit_framesOut] at hg
    obtain hg | hg := List.mem_append.mp hg
    · exact hseen g hg
    · cases List.mem_singleton.mp hg
      exact hf
  cases hatomic : atomic s
  · rw [deliver_of_not_atomic hatomic]
    refine ⟨hrx, htx', fun g hg => ?_, hseen', fun _ => ⟨ha, hh, htx⟩, fun _ => ha⟩
    cases hg
    exact hf
  · rw [deliver_of_atomic hatomic]
    exact (works_dispatch _ (s.emit [.frameOut f])).inv_of_not_hung ⟨hrx, htx', hframe, hseen', hport⟩ hnone hh

/-- Settles O30: the receiver's registers, the encoder's registers and the ports each keep their part, whatever the step
is. -/
theorem stepKeepsInvariant : Obligations.StepKeepsInvariant := by
  intro s t hs ht
  obtain ⟨hrx, htx, hframe, hseen, hport⟩ := hs
  obtain ⟨rest, -, hstep⟩ | ⟨b, rest, -, hr, hstep⟩ | ⟨ready, rest, -, hstep⟩ | ⟨rest, u, hadv, hstep⟩ :=
    step_cases s <;> cases hstep.symm.trans ht
  · exact ⟨rxInv_of_idle_or_cmd rfl (.inl rfl), txInv_of_idle rfl, nofun, hseen, nofun, nofun⟩
  · obtain ⟨hnone, ha, hidle, hh⟩ := (rxReady_iff s).mp hr
    have hs' : Inv ((s.withInputs rest).withRx (rxStep s.rx b).1) :=
      ⟨rxStep_keeps_rxInv hrx b, htx, hframe, hseen, hport⟩
    cases he : (rxStep s.rx b).2 with
    | noEvent => exact hs'
    | frameOut f => exact inv_deliver (frameValid_of_rxStep hrx he) hs' hnone ha hidle hh
    | nackOut => exact (works_dispatch nackActions _).inv_of_not_hung hs' hnone hh
  · exact ⟨hrx, htx, hframe, hseen, hport⟩
  · exact hadv.inv ⟨hrx, htx, hframe, hseen, hport⟩

end Sys2Proof.Proofs
end

section
namespace Sys2Proof.Proofs

open Machine

/-! ## An accepted byte (R4, R70) -/

/-- A NACK calls no handler, whether it is sent at once or left (R130). -/
theorem dispatch_nackActions_handlerCalls (s : State) : (dispatch nackActions s).handlerCalls = s.handlerCalls := by
  cases ha : atomic s
  · rw [dispatch_of_not_atomic ha]
    rfl
  · rw [dispatch_nackActions_of_atomic ha, State.emit_handlerCalls]
    exact List.append_nil _

theorem step_of_rx {s : State} {b : Byte} {rest : List Input} (hin : s.inputs = .rx b :: rest)
    (hr : rxReady s = true) : step s = exec (receiveInstr s.rx b) (s.withInputs rest) :=
  step_of_run (by simp [turn, hin, hr])

/-- Settles O10: the step is `rx_step`'s registers, then its event. -/
theorem acceptedByteAppliesStepFunction : Obligations.AcceptedByteAppliesStepFunction := by
  intro s b rest hin hr
  obtain ⟨hrx, -, hinputs, -⟩ := react_keeps (rxStep s.rx b).2 ((s.withInputs rest).withRx (rxStep s.rx b).1)
  refine ⟨_, (step_of_rx hin hr).trans (exec_receiveInstr (s.withInputs rest) b), hrx, hinputs,
    fun he => ?_, fun f he => ?_, fun he => ?_⟩
  · rw [State.withInputs_rx, he]
    rfl
  · rw [State.withInputs_rx, he]
    obtain ⟨-, -, -, htrace⟩ := deliver_keeps f ((s.withInputs rest).withRx (rxStep s.rx b).1)
    exact htrace
  · rw [State.withInputs_rx, he]
    exact ⟨(works_dispatch nackActions _).framesOut, dispatch_nackActions_handlerCalls _⟩

/-! ## What the next step runs (R6, R18, R64) -/

theorem step_of_send {s : State} {r : Request} {rest : List Input} (hin : s.inputs = .send r :: rest)
    (hr : sendReady s = true) : step s = exec (requestInstr r) (s.withInputs rest) :=
  step_of_run (by simp [turn, hin, hr])

/-- With no input the work left, if there is any, has its turn. -/
theorem turn_of_work {s : State} {t : Turn} (hin : s.inputs = []) (h : work s = some t) : turn s = t := by
  simp [turn, hin, workOrWait, h]

theorem work_of_frame {s : State} {f : Frame} (hf : s.frame = some f) :
    work s = some (.run (commandInstr s.params f.cmd f.payload) (s.withFrame none)) := by
  simp [work, hf]

theorem work_of_txInstr {s : State} {i : Instr} (hf : s.frame = none) (hsink : s.sinkReady = true)
    (hi : txInstr s.tx.state = some i) : work s = some (.run i s) := by
  simp [work, hf, hsink, hi]

theorem work_of_agenda {s : State} {a : Action} {rest : List Action} (hf : s.frame = none)
    (htx : s.tx.state = .idle) (ha : s.agenda = a :: rest) : work s = some (actionTurn a (s.withAgenda rest)) := by
  simp [work, hf, htx, txInstr, ha]

theorem step_of_frame {s : State} {f : Frame} (hin : s.inputs = []) (hf : s.frame = some f) :
    step s = exec (commandInstr s.params f.cmd f.payload) (s.withFrame none) :=
  step_of_run (turn_of_work hin (work_of_frame hf))

theorem step_of_txInstr {s : State} {i : Instr} (hin : s.inputs = []) (hf : s.frame = none)
    (hsink : s.sinkReady = true) (hi : txInstr s.tx.state = some i) : step s = exec i s :=
  step_of_run (turn_of_work hin (work_of_txInstr hf hsink hi))

/-- Settles O7: each input, and each kind of work, has its turn. -/
theorem stepRunsSelectedOperation : Obligations.StepRunsSelectedOperation := by
  intro s
  exact ⟨fun b rest hin hr => step_of_rx hin hr, fun r rest hin hr => step_of_send hin hr,
    fun rest hin => step_of_reset hin, fun f hin hf => step_of_frame hin hf,
    fun i hin hf hsink hi => step_of_txInstr hin hf hsink hi,
    fun r rest hin hf htx ha => step_of_run (turn_of_work hin (work_of_agenda hf htx ha))⟩

/-- Settles O8: the frame's bytes decode to its command's operation, and to no other. -/
theorem frameAtPortRunsAsDecoded : Obligations.FrameAtPortRunsAsDecoded := by
  intro s f i rest hin hf hp hdec
  have hcommand := decodeFrame_wireFrame (P := s.params) hp (frameInstr_toDevice (c := f.cmd) (p := f.payload) rfl) []
  rw [List.append_nil, hdec] at hcommand
  cases hcommand
  exact step_of_frame hin hf

/-- Settles O37: neither an idle encoder with an empty agenda nor a stuck sink leaves any work. -/
theorem nothingOfferedChangesNothing : Obligations.NothingOfferedChangesNothing := by
  intro s hin hf hquiet
  have hwork : work s = none := by
    obtain ⟨htx, ha⟩ | ⟨htx, hsink⟩ := hquiet
    · simp [work, hf, htx, txInstr, ha]
    · exact work_of_stuck hf htx hsink
  exact step_of_env (by simp [turn, hin, workOrWait, hwork])

/-! ## Table words, placed (log entries 15 and 16) -/

/-- Bytes that decode as a frame decode to the frame that `frameOfBytes` reads. -/
theorem frameInstr_of_decodeFrame {P : Params} {d : Direction} {bytes rest : List Byte} {i : Instr}
    (h : decodeFrame P d bytes = .ok (i, rest)) :
    frameInstr P d (frameOfBytes bytes).cmd (frameOfBytes bytes).payload = .ok i := by
  unfold decodeFrame at h
  split at h
  · cases h
  · split at h
    · split at h
      · rename_i st c l more
        unfold decodeBody at h
        split at h
        · cases h
        · split at h
          · cases h
          · split at h
            · split at h
              · cases h
                assumption
              · cases h
            · cases h
      · cases h
    · cases h

/-- A key placed at the RX port is decoded by the next step, with the registers of the selection at 0. -/
theorem step_placeKey (k : BitVec 11) (s : State) :
    ∃ t, step (placeKey k s) = exec (decodeKey 0 0 0 k) t ∧ t.trace = s.trace ∧ t.handlers = s.handlers ∧
      t.params = s.params ∧ t.inputs = s.inputs := by
  have hinstr : receiveInstr (placeKey k s).rx (k.extractLsb' 0 8) = decodeKey 0 0 0 k := receiveInstr_eq _ _
  have hready : rxReady (placeKey k s) = true := (rxReady_iff _).mpr ⟨rfl, rfl, rfl, rfl⟩
  rw [step_of_rx (rest := s.inputs) rfl hready, hinstr]
  exact ⟨_, rfl, rfl, rfl, rfl, rfl⟩

/-- A frame placed at the FRAME port is taken by the next step. -/
theorem step_placeFrame (f : Frame) (s : State) :
    ∃ t, step (placeFrame f s) = exec (commandInstr s.params f.cmd f.payload) t ∧ t.trace = s.trace ∧
      t.handlers = s.handlers ∧ t.params = s.params ∧ t.inputs = s.inputs :=
  ⟨((placeFrame f s).withInputs s.inputs).withFrame none, rfl, rfl, rfl, rfl, rfl⟩

/-- A request placed at the SEND port is accepted by the next step. -/
theorem step_placeRequest (r : Request) (s : State) :
    ∃ t, step (placeRequest r s) = exec (requestInstr r) t ∧ t.trace = s.trace ∧ t.handlers = s.handlers ∧
      t.params = s.params ∧ t.inputs = s.inputs := by
  have hready : sendReady (placeRequest r s) = true := (sendReady_iff _).mpr ⟨rfl, rfl, rfl⟩
  rw [step_of_send (rest := s.inputs) rfl hready]
  exact ⟨_, rfl, rfl, rfl, rfl, rfl⟩

/-- An encoding that decodes is what the next step runs when it is placed. -/
theorem step_placeCode {s : State} {c : Code} {i : Instr} (hP : s.params = Params.specDefault)
    (h : decode Params.specDefault 0 0 0 c = .ok i) :
    ∃ t, step (placeCode c s) = exec i t ∧ t.trace = s.trace ∧ t.handlers = s.handlers ∧
      t.params = s.params ∧ t.inputs = s.inputs := by
  cases c with
  | key k =>
    cases h
    exact step_placeKey k s
  | wire d bytes =>
    cases hdec : decodeFrame Params.specDefault d bytes with
    | error e => simp [decode, hdec] at h
    | ok ir =>
      obtain ⟨j, rest⟩ := ir
      have hij : j = i := by simpa [decode, hdec] using h
      subst hij
      have hframe := frameInstr_of_decodeFrame hdec
      cases d with
      | toDevice =>
        cases hframe
        rw [← hP]
        exact step_placeFrame (frameOfBytes bytes) s
      | toHost =>
        cases hr : responseOf Params.specDefault (frameOfBytes bytes).cmd (frameOfBytes bytes).payload with
        | none => simp [frameInstr, hr] at hframe
        | some r =>
          have hri : responseInstr r = j := by simpa [frameInstr, hr] using hframe
          have hplace : placeCode (.wire .toHost bytes) s = placeRequest (.response r) s := by simp [placeCode, hr]
          rw [hplace, ← hri]
          exact step_placeRequest (.response r) s

/-- Settles O11: a table word is decoded as the encoding it stands for, and that is placed. -/
theorem placedTableWordRunsNext : Obligations.PlacedTableWordRunsNext := by
  intro s nbits w i hP h
  cases hdec : decode Params.specDefault 0 0 0 (codeOfWord Params.specDefault nbits w) with
  | ok j =>
    simp only [decodeTableWord, hdec, Option.some.injEq] at h
    exact step_placeCode hP (h ▸ hdec)
  | error e =>
    simp only [decodeTableWord, hdec] at h
    exact nomatch h

/-! ## Reset (R160 to R162) -/

/-- Settles O31: between frames the invariant asks for little, and nothing has been delivered. -/
theorem resetMeetsInvariant : Obligations.ResetMeetsInvariant :=
  ⟨rxInv_of_idle_or_cmd reset_buf_wf (.inl rfl), txInv_of_idle rfl, nofun, nofun, nofun, nofun⟩

/-- Settles O38: RESET.ASSERT writes the registers, the ports and the dispatch, and no other field. -/
theorem resetInputForgetsFrames : Obligations.ResetInputForgetsFrames :=
  fun _ => ⟨_, rfl, rfl, rfl, rfl, rfl, rfl, rfl, rfl, rfl, rfl, rfl, rfl⟩

/-- Settles O39: the fields of the reset state. -/
theorem stateAfterReset : Obligations.StateAfterReset :=
  ⟨rfl, rfl, rfl, rfl, rfl, rfl⟩

/-! ## Every operation (R70, R108, R140) -/

/-- Settles O32: no operation has another outcome than a next state, and a step runs one or waits. -/
theorem everyOperationAnswers : Obligations.EveryOperationAnswers := by
  have hexec (i : Instr) (s : State) : ∃ t, exec i s = .next t := by
    cases i with
    | csumAcc side op b => cases side <;> exact ⟨_, rfl⟩
    | _ => exact ⟨_, rfl⟩
  refine ⟨hexec, fun s => ?_⟩
  rw [step_eq_turnOutcome]
  cases turn s with
  | run i t => exact hexec i t
  | env t => exact ⟨t, rfl⟩

/-- An operation that writes no receiver register does what sends and dispatches do, or only hands a result to its
caller (R90, R93, R108). -/
theorem keeps_of_not_writesRx {i : Instr} {s t : State} (hi : writesRx i = false) (ht : exec i s = .next t) :
    Keeps s t ∨ ∃ v, t = s.withFnResult v := by
  have hbyte (o : List Obs) (u : Tx) : Keeps s ((s.emit o).withTx u) := (keeps_emit s o).trans (keeps_withTx _ u)
  cases i
  case csumFn | csumCmp =>
    cases ht
    exact .inr ⟨_, rfl⟩
  case csumAcc side op b =>
    cases side with
    | rx => cases hi
    | tx =>
      cases ht
      exact .inl (keeps_withTx s _)
  case txSend c p =>
    cases ht
    exact .inl (keeps_send c p s)
  case txSendRefuse =>
    cases ht
    exact .inl (keeps_emit s _)
  case txByteStart | txByteCmd | txByteLen | txByteData | txByteCsum =>
    cases ht
    exact .inl (hbyte _ _)
  case txByteEnd =>
    cases ht
    exact .inl ((keeps_emit s _).trans ((keeps_emit _ _).trans (keeps_withTx _ _)))
  case txAck | txNack | ack | nack | imuData | ultrasonicData | allSensorsData | systemStatus =>
    cases ht
    exact .inl (keeps_sendRequest _ s)
  case motorSetSpeed | motorStop | motorEstop | imuReq | ultrasonicReq | allSensorsReq | ledControl | buzzerControl |
      statusReq | resetCommand | unknown =>
    cases ht
    exact .inl (keeps_dispatch _ s)
  all_goals cases hi

/-- Settles O22: the buffer is a receiver register, so its cells are kept with the registers. -/
theorem otherOperationsFrame : Obligations.OtherOperationsFrame := by
  intro s t i hi ht
  obtain h | ⟨v, rfl⟩ := keeps_of_not_writesRx hi ht
  · exact ⟨h.rx, fun a => by rw [h.rx], h.params, h.frame, h.inputs, h.sinkReady, h.trace⟩
  · exact ⟨rfl, fun _ => rfl, rfl, rfl, rfl, rfl, List.prefix_refl _⟩

/-- WrongArity is the outcome of the three commands with a fixed length (R144). -/
theorem raises_wrongArity_iff (i : Instr) :
    raises i = some .wrongArity ↔
      ∃ p, (p.length ≠ 2 ∧ i = .motorSetSpeed p) ∨ (p.length ≠ 1 ∧ (i = .ledControl p ∨ i = .buzzerControl p)) := by
  cases i <;> simp [raises]

/-- SendRefused is the outcome of a send of more than 64 bytes (R145). -/
theorem raises_sendRefused_iff (i : Instr) :
    raises i = some .sendRefused ↔
      ∃ c p, i = .txSendRefuse c p ∨ (maxPayload < p.length ∧ (i = .txSend c p ∨ i = .allSensorsData p)) := by
  cases i <;> simp [raises]

/-! ## The error outcomes (R140 to R145) -/

theorem motorSetSpeedActions_of_ne {p : List Byte} (h : p.length ≠ 2) : motorSetSpeedActions p = nackActions := by
  match p with
  | [] => rfl
  | [_] => rfl
  | [_, _] => exact absurd rfl h
  | _ :: _ :: _ :: _ => rfl

theorem ledControlActions_of_ne {p : List Byte} (h : p.length ≠ 1) : ledControlActions p = nackActions := by
  match p with
  | [] => rfl
  | [_] => exact absurd rfl h
  | _ :: _ :: _ => rfl

theorem buzzerControlActions_of_ne {p : List Byte} (h : p.length ≠ 1) : buzzerControlActions p = nackActions := by
  match p with
  | [] => rfl
  | [_] => exact absurd rfl h
  | _ :: _ :: _ => rfl

theorem exec_motorSetSpeed_of_ne {p : List Byte} (h : p.length ≠ 2) (s : State) :
    exec (.motorSetSpeed p) s = .next (dispatch nackActions s) := by
  rw [← motorSetSpeedActions_of_ne h]
  rfl

theorem exec_ledControl_of_ne {p : List Byte} (h : p.length ≠ 1) (s : State) :
    exec (.ledControl p) s = .next (dispatch nackActions s) := by
  rw [← ledControlActions_of_ne h]
  rfl

theorem exec_buzzerControl_of_ne {p : List Byte} (h : p.length ≠ 1) (s : State) :
    exec (.buzzerControl p) s = .next (dispatch nackActions s) := by
  rw [← buzzerControlActions_of_ne h]
  rfl

/-- What is seen of a NACK where sends are one step: its five bytes, no frame, no call. -/
theorem dispatch_nackActions_seen {s : State} (ha : atomic s = true) :
    (dispatch nackActions s).handlerCalls = s.handlerCalls ∧ (dispatch nackActions s).framesOut = s.framesOut ∧
      (dispatch nackActions s).txStream =
        s.txStream ++ [0xAA, s.params.nackCode, 0x00, s.params.nackCode, 0x55] := by
  refine ⟨dispatch_nackActions_handlerCalls s, (works_dispatch nackActions s).framesOut, ?_⟩
  rw [dispatch_nackActions_of_atomic ha, State.emit_txStream]
  rfl

/-- A refused send is seen as a result alone (R101). -/
theorem refused_seen (s : State) :
    (s.emit [.sendResult false]).handlerCalls = s.handlerCalls ∧
      (s.emit [.sendResult false]).framesOut = s.framesOut ∧
      (s.emit [.sendResult false]).txStream = s.txStream ++ [] := by
  rw [State.emit_handlerCalls, State.emit_framesOut, State.emit_txStream]
  exact ⟨List.append_nil _, List.append_nil _, rfl⟩

/-- Settles O40: outcome by outcome, the operations that raise it. -/
theorem errorOutcomesSendOneNackOrNothing : Obligations.ErrorOutcomesSendOneNackOrNothing := by
  intro i s o ho ha
  cases o
  case framingDrop =>
    obtain ⟨b, rfl⟩ := (raises_framingDrop_iff i).mp ho
    exact ⟨_, rfl, rfl, rfl, (List.append_nil _).symm⟩
  case checksumMismatch =>
    obtain ⟨b, rfl⟩ := (raises_checksumMismatch_iff i).mp ho
    exact ⟨_, rfl, dispatch_nackActions_seen (s := s.withRx (rxOnCsum s.rx b)) ha⟩
  case unknownCommand =>
    obtain ⟨c, p, rfl⟩ := (raises_unknownCommand_iff i).mp ho
    exact ⟨_, exec_unknown c p s, dispatch_nackActions_seen ha⟩
  case wrongArity =>
    obtain ⟨p, ⟨hp, rfl⟩ | ⟨hp, rfl | rfl⟩⟩ := (raises_wrongArity_iff i).mp ho
    · exact ⟨_, exec_motorSetSpeed_of_ne hp s, dispatch_nackActions_seen ha⟩
    · exact ⟨_, exec_ledControl_of_ne hp s, dispatch_nackActions_seen ha⟩
    · exact ⟨_, exec_buzzerControl_of_ne hp s, dispatch_nackActions_seen ha⟩
  case sendRefused =>
    obtain ⟨c, p, rfl | ⟨hp, rfl | rfl⟩⟩ := (raises_sendRefused_iff i).mp ho
    · exact ⟨_, exec_txSendRefuse c p s, refused_seen s⟩
    · exact ⟨_, congrArg Host.Outcome.next (send_of_lt hp c s), refused_seen s⟩
    · exact ⟨_, congrArg Host.Outcome.next (send_of_lt hp s.params.rspAllSensorsData s), refused_seen s⟩

end Sys2Proof.Proofs
end

section
namespace Sys2Proof.Proofs

open Machine

/-! ## The byte-serial encoder (R105, R110) -/

/-- Settles O47: of the four things a send can do, the one for an idle encoder and the one for a busy encoder. -/
theorem serialEncoderAcceptsOrHolds : Obligations.SerialEncoderAcceptsOrHolds := by
  intro s c p hp ha
  obtain ⟨hlt, -⟩ | ⟨-, ha', -⟩ | ⟨-, -, hidle, h⟩ | ⟨-, hbusy, h⟩ := send_cases c p s
  · exact absurd hlt (Nat.not_lt.mpr hp)
  · exact nomatch ha.symm.trans ha'
  · exact ⟨fun _ => congrArg Host.Outcome.next h, fun hne => absurd hidle hne⟩
  · exact ⟨fun hidle => absurd hidle hbusy, fun _ => congrArg Host.Outcome.next h⟩

/-- TX.BYTE.LEN goes to TxData unless the length is 0. -/
theorem exec_txByteLen (s : State) :
    exec .txByteLen s = .next ((s.emit [.tx s.tx.len]).withTx
      { s.tx with acc := s.tx.acc + s.tx.len, state := if s.tx.len = 0 then .csum else .data }) := by
  have hstate : (if 0 < s.tx.len.toNat then TxState.data else .csum) = if s.tx.len = 0 then .csum else .data := by
    by_cases h : s.tx.len = 0
    · rw [h]
      rfl
    · rw [if_neg h, if_pos (Nat.pos_of_ne_zero fun h0 => h (BitVec.eq_of_toNat_eq h0))]
  rw [← hstate]
  rfl

theorem txPayloadByte_of_getElem? {t : Tx} {b : Byte} (h : t.payload[t.idx.toNat]? = some b) :
    txPayloadByte t = b := by
  rw [txPayloadByte, List.getD_eq_getElem?_getD, h, Option.getD_some]

/-- TX.BYTE.DATA writes the payload byte at `tx_idx`. -/
theorem exec_txByteData {s : State} {b : Byte} (h : s.tx.payload[s.tx.idx.toNat]? = some b) :
    exec .txByteData s = .next ((s.emit [.tx b]).withTx
      { s.tx with
        acc := s.tx.acc + b, idx := s.tx.idx + 1
        state := if s.tx.idx.toNat + 1 = s.tx.len.toNat then .csum else .data }) := by
  rw [← txPayloadByte_of_getElem? h]
  rfl

theorem exec_txByteEnd (s : State) :
    exec .txByteEnd s = .next ((s.emit [.tx 0x55, .sendResult true]).withTx { s.tx with state := .idle }) :=
  congrArg (fun u : State => Host.Outcome.next (u.withTx { s.tx with state := .idle }))
    (State.emit_emit s [.tx endByte] [.sendResult true])

/-- Settles O49: the six steps, three of them as they are written. -/
theorem byteSerialSteps : Obligations.ByteSerialSteps :=
  fun s => ⟨rfl, rfl, exec_txByteLen s, fun _ => exec_txByteData, rfl, exec_txByteEnd s⟩

/-- A state in which the next step writes a byte: nothing is offered, no frame waits, and the sink takes bytes. -/
structure Writing (s : State) : Prop where
  inputs : s.inputs = []
  frame : s.frame = none
  sinkReady : s.sinkReady = true

theorem Writing.emit_withTx {s : State} (h : Writing s) (o : List Obs) (t : Tx) : Writing ((s.emit o).withTx t) :=
  ⟨h.inputs, h.frame, h.sinkReady⟩

/-- The first step of a run, where a byte is written. -/
theorem run_succ_of_txInstr {s u : State} {i : Instr} (h : Writing s) (hi : txInstr s.tx.state = some i)
    (hu : exec i s = .next u) (n : Nat) : core.run (n + 1) s = core.run n u := by
  have hstep : core.step s = .next u := (step_of_txInstr h.inputs h.frame h.sinkReady hi).trans hu
  simp only [Host.Core.run, hstep]

theorem emit_withTx_emit_withTx (s : State) (o o' : List Obs) (t t' : Tx) :
    (((s.emit o).withTx t).emit o').withTx t' = (s.emit (o ++ o')).withTx t' := by
  rw [← State.emit_emit]
  rfl

/-- TX.BYTE.DATA, as one step of a run. -/
theorem run_succ_of_txData {s : State} (hs : Writing s) (hst : s.tx.state = .data) (n : Nat) :
    core.run (n + 1) s = core.run n ((s.emit [.tx (txPayloadByte s.tx)]).withTx (dataNext s.tx)) :=
  run_succ_of_txInstr hs (i := .txByteData) (by rw [hst]; rfl) rfl n

/-- In TxData the payload bytes still missing are written in order, and `tx_acc` is then the checksum (R110). -/
theorem run_txData {s : State} {q : List Byte} (hs : Writing s) (hst : s.tx.state = .data) (ht : TxInv s.tx)
    (hq : s.tx.payload.drop s.tx.idx.toNat = q) (n : Nat) :
    ∃ t, core.run (q.length + n) s = core.run n ((s.emit (q.map Obs.tx)).withTx t) ∧ t.state = .csum ∧
      t.acc = checksum s.tx.cmd s.tx.len s.tx.payload := by
  induction q generalizing s with
  | nil => exact nomatch (drop_idx_eq_cons hst ht).symm.trans hq
  | cons b q ih =>
    obtain ⟨rfl, hrest⟩ := List.cons.inj ((drop_idx_eq_cons hst ht).symm.trans hq)
    have hlength : (txPayloadByte s.tx :: q).length + n = q.length + n + 1 := Nat.add_right_comm _ _ _
    have hstate := dataNext_state hst ht
    have hinv := txInv_dataNext hst ht
    rw [hrest] at hstate
    rw [hlength, run_succ_of_txData hs hst]
    by_cases hnil : q = []
    · subst hnil
      rw [if_pos rfl] at hstate
      obtain ⟨-, -, -, -, hacc⟩ := hinv
      exact ⟨dataNext s.tx, by rw [List.length_nil, Nat.zero_add]; rfl, hstate, hacc hstate⟩
    · rw [if_neg hnil] at hstate
      have hs' := hs.emit_withTx [.tx (txPayloadByte s.tx)] (dataNext s.tx)
      obtain ⟨t, hrun, hstate', hacc⟩ := ih hs' hstate hinv hrest
      rw [hrun, emit_withTx_emit_withTx]
      exact ⟨t, rfl, hstate', hacc⟩

/-- The payload of a request, of any length, brings the encoder from TxLen to TxCsum. -/
theorem run_txLen {s : State} (hs : Writing s) (hst : s.tx.state = .len) (ht : TxInv s.tx) (n : Nat) :
    ∃ t, core.run (s.tx.payload.length + n + 1) s =
        core.run n ((s.emit (.tx s.tx.len :: s.tx.payload.map Obs.tx)).withTx t) ∧ t.state = .csum ∧
      t.acc = checksum s.tx.cmd s.tx.len s.tx.payload := by
  have hfirst : core.run (s.tx.payload.length + n + 1) s =
      core.run (s.tx.payload.length + n) ((s.emit [.tx s.tx.len]).withTx (lenNext s.tx)) :=
    run_succ_of_txInstr hs (i := .txByteLen) (by rw [hst]; rfl) rfl _
  have hinv := txInv_lenNext hst ht
  rw [hfirst]
  by_cases hpos : 0 < s.tx.len.toNat
  · have hstate : (lenNext s.tx).state = .data := if_pos hpos
    obtain ⟨-, hidx, -, -, -⟩ := ht
    have hidx : (lenNext s.tx).idx = 0 := hidx (.inr (.inr hst))
    have hdrop : (lenNext s.tx).payload.drop (lenNext s.tx).idx.toNat = s.tx.payload := by
      rw [hidx]
      rfl
    obtain ⟨t, hrun, hstate', hacc⟩ :=
      run_txData (hs.emit_withTx [.tx s.tx.len] (lenNext s.tx)) hstate hinv hdrop n
    rw [emit_withTx_emit_withTx] at hrun
    exact ⟨t, hrun, hstate', hacc⟩
  · have hstate : (lenNext s.tx).state = .csum := if_neg hpos
    obtain ⟨hlen, -, -, -, hacc⟩ := hinv
    obtain ⟨hlen, -⟩ := hlen (by simp [hstate])
    have hnil : s.tx.payload = [] := List.length_eq_zero_iff.mp (hlen.symm.trans (Nat.eq_zero_of_not_pos hpos))
    exact ⟨lenNext s.tx, by simp only [hnil, List.length_nil, Nat.zero_add, List.map_nil], hstate, hacc hstate⟩

/-- From TxCsum the checksum and END are written, and success is reported. -/
theorem run_txCsum {s : State} (hs : Writing s) (hst : s.tx.state = .csum) :
    core.run 2 s =
      .next ((s.emit [.tx s.tx.acc, .tx endByte, .sendResult true]).withTx { s.tx with state := .idle }) := by
  have hcsum : core.run 2 s = core.run 1 ((s.emit [.tx s.tx.acc]).withTx { s.tx with state := .fin }) :=
    run_succ_of_txInstr hs (i := .txByteCsum) (by rw [hst]; rfl) rfl 1
  have hend := run_succ_of_txInstr (hs.emit_withTx [.tx s.tx.acc] { s.tx with state := .fin }) (i := .txByteEnd) rfl
    (exec_txByteEnd _) 0
  rw [emit_withTx_emit_withTx] at hend
  exact hcsum.trans hend

/-- From TxStart START and COMMAND are written. -/
theorem run_txStart {s : State} (hs : Writing s) (hst : s.tx.state = .start) (n : Nat) :
    core.run (n + 2) s = core.run n
      ((s.emit [.tx startByte, .tx s.tx.cmd]).withTx (cmdNext s.tx)) := by
  have hstart : core.run (n + 2) s = core.run (n + 1) ((s.emit [.tx startByte]).withTx { s.tx with state := .cmd }) :=
    run_succ_of_txInstr hs (i := .txByteStart) (by rw [hst]; rfl) rfl (n + 1)
  have hcmd : core.run (n + 1) ((s.emit [.tx startByte]).withTx { s.tx with state := .cmd }) =
      core.run n ((((s.emit [.tx startByte]).withTx { s.tx with state := .cmd }).emit [.tx s.tx.cmd]).withTx
        (cmdNext s.tx)) :=
    run_succ_of_txInstr (hs.emit_withTx _ _) (i := .txByteCmd) rfl rfl n
  rw [emit_withTx_emit_withTx] at hcmd
  exact hstart.trans hcmd

/-- An accepted request is written as a whole: START and COMMAND, LENGTH and the payload, CHECKSUM and END (R110). -/
theorem run_accepted {s : State} (hs : Writing s) (hst : s.tx.state = .start) (ht : TxInv s.tx)
    (hlen : s.tx.len = BitVec.ofNat 8 s.tx.payload.length) :
    ∃ t, core.run (s.tx.payload.length + 5) s =
      .next ((s.emit ((wireFrame s.tx.cmd s.tx.payload).map Obs.tx ++ [.sendResult true])).withTx t) ∧
      t.state = .idle := by
  have hinv : TxInv (cmdNext s.tx) := txInv_cmdNext (t := { s.tx with state := .cmd }) rfl (txInv_byteStart hst ht)
  have hstart := run_txStart hs hst (s.tx.payload.length + 3)
  have hs2 := hs.emit_withTx [.tx startByte, .tx s.tx.cmd] (cmdNext s.tx)
  obtain ⟨t, hlenRun, hstate, hacc⟩ := run_txLen hs2 rfl hinv 2
  have hcsum := run_txCsum (hs2.emit_withTx (.tx s.tx.len :: s.tx.payload.map Obs.tx) t) hstate
  have hacc : t.acc = checksum s.tx.cmd s.tx.len s.tx.payload := hacc
  have hseen : [.tx startByte, .tx s.tx.cmd] ++ .tx s.tx.len :: s.tx.payload.map Obs.tx ++
      [.tx t.acc, .tx endByte, .sendResult true] =
      (wireFrame s.tx.cmd s.tx.payload).map Obs.tx ++ [.sendResult true] := by
    simp [wireFrame, hacc, hlen]
  rw [emit_withTx_emit_withTx] at hlenRun
  rw [emit_withTx_emit_withTx, emit_withTx_emit_withTx, State.withTx_tx, hseen] at hcsum
  exact ⟨{ t with state := .idle }, (hstart.trans hlenRun).trans hcsum, rfl⟩

/-- Settles O50: the accepted request is written as a whole, and nothing else changes. -/
theorem byteSerialEncoderWritesTheFrame : Obligations.ByteSerialEncoderWritesTheFrame := by
  intro s t c p hp ha hsink hidle hin hf ht
  obtain ⟨haccepts, -⟩ := serialEncoderAcceptsOrHolds s c p hp ha
  cases (haccepts hidle).symm.trans ht
  have hs : Writing (s.withTx (acceptSend s.tx c p)) := ⟨hin, hf, hsink⟩
  obtain ⟨u, hrun, hu⟩ := run_accepted hs rfl (txInv_acceptSend s.tx c hp) rfl
  exact ⟨_, hrun, (List.append_assoc _ _ _).symm, hu, rfl, rfl⟩

/-! ## Typed response frames (R58 to R60, R62) -/

/-- Settles O51: `w4` is the model's own four bytes of a value, and a response is the send of its code and payload. -/
theorem responseFramesCarryTheirRecords : Obligations.ResponseFramesCarryTheirRecords := by
  rintro s r u v p q1 q2 q3 w4 hw4 rfl rfl rfl
  have hw : w4 = bytesOfWord s.params.byteOrder := by
    funext w
    rw [hw4]
    cases s.params.byteOrder <;> rfl
  have himu : [r.accelX, r.accelY, r.accelZ, r.gyroX, r.gyroY, r.gyroZ, r.magX, r.magY, r.magZ, r.roll, r.pitch,
      r.yaw].flatMap w4 = imuPayload s.params.byteOrder r := by
    simp [hw, imuPayload]
  have hultrasonic : [u.front, u.rear, u.left, u.right].flatMap w4 = ultrasonicPayload s.params.byteOrder u := by
    simp [hw, ultrasonicPayload]
  have hstatus : w4 v.uptime ++ w4 v.battery ++ [v.cpuLoad, v.errorCount] = statusPayload s.params.byteOrder v := by
    rw [hw]
    rfl
  rw [himu, hultrasonic, hstatus]
  have hsend {c : Byte} {q : List Byte} (ha : atomic s = true) (hq : q.length ≤ 64) :
      exec (.txSend c q) s = .next (s.emit ((wireFrame c q).map Obs.tx ++ [.sendResult true])) := by
    rw [exec_txSend, send_of_atomic ha, sendObs_of_le hq]
  refine ⟨rfl, rfl, rfl, rfl, fun ha hp => ⟨?_, ?_, ?_, hsend ha hp⟩⟩
  · exact hsend ha ((imuPayload_length _ _).trans_le (by decide))
  · exact hsend ha ((ultrasonicPayload_length _ _).trans_le (by decide))
  · exact hsend ha ((statusPayload_length _ _).trans_le (by decide))

end Sys2Proof.Proofs
end

section
namespace Sys2Proof.Proofs

open Machine

/-! ## Actions where sends are one step (R115, R128 to R130) -/

theorem neverReturns_of_returns {h : Handler} {e : HandlerRun} (hh : h ≠ .reset) (he : e.returns = true) :
    neverReturns h e = false := by
  simp [neverReturns, hh, he]

theorem neverReturns_of_not_returns {e : HandlerRun} (he : e.returns = false) (h : Handler) :
    neverReturns h e = true := by
  simp [neverReturns, he]

/-- A handler that returns is seen with its sends, and the dispatch goes on. -/
theorem runActions_call_of_returns {s : State} (ha : atomic s = true) {h : Handler}
    (hret : neverReturns h (nextRun s) = false) (as : List Action) :
    runActions (.call h :: as) s =
      runActions as ((s.withHandlers s.handlers.tail).emit (callObs s.params h (nextRun s))) := by
  have hcall := callHandler_of_atomic ha h
  rw [hret] at hcall
  rw [runActions, blocks, hret]
  exact congrArg (runActions as) hcall

/-- A handler that never returns is seen with its sends, and ends the dispatch. -/
theorem runActions_call_of_never {s : State} (ha : atomic s = true) {h : Handler}
    (hret : neverReturns h (nextRun s) = true) (as : List Action) :
    runActions (.call h :: as) s =
      neverDone ((s.withHandlers s.handlers.tail).emit (callObs s.params h (nextRun s))) := by
  have hcall := callHandler_of_atomic ha h
  rw [hret] at hcall
  rw [runActions, blocks, hret]
  exact hcall

theorem requestObs_ack (P : Params) : requestObs P .ack = ackObs :=
  (sendObs_nil 0xA0).trans nackObs_ackCode

theorem runActions_ack {s : State} (ha : atomic s = true) (as : List Action) :
    runActions (.send .ack :: as) s = runActions as (s.emit ackObs) := by
  rw [← requestObs_ack s.params, ← sendRequest_of_atomic ha]
  rfl

theorem runActions_wait (w : Wait) (as : List Action) (s : State) :
    runActions (.wait w :: as) s = runActions as (s.emit [.wait w]) := rfl

/-- A handler that returns, and then one ACK. -/
theorem dispatch_call_ack {s : State} (ha : atomic s = true) {h : Handler} (hh : h ≠ .reset)
    (he : (nextRun s).returns = true) :
    dispatch [.call h, .send .ack] s =
      (s.withHandlers s.handlers.tail).emit (callObs s.params h (nextRun s) ++ ackObs) := by
  rw [dispatch_of_atomic ha, runActions_call_of_returns ha (neverReturns_of_returns hh he),
    runActions_ack (by simpa using ha), State.emit_emit]
  rfl

/-- A handler that returns, and nothing else. -/
theorem dispatch_call {s : State} (ha : atomic s = true) {h : Handler} (hh : h ≠ .reset)
    (he : (nextRun s).returns = true) :
    dispatch [.call h] s = (s.withHandlers s.handlers.tail).emit (callObs s.params h (nextRun s)) := by
  rw [dispatch_of_atomic ha, runActions_call_of_returns ha (neverReturns_of_returns hh he)]
  rfl

/-- A handler that never returns, whatever should follow it. -/
theorem dispatch_call_of_not_returns {s : State} (ha : atomic s = true) (h : Handler)
    (he : (nextRun s).returns = false) (as : List Action) :
    dispatch (.call h :: as) s =
      neverDone ((s.withHandlers s.handlers.tail).emit (callObs s.params h (nextRun s))) := by
  rw [dispatch_of_atomic ha, runActions_call_of_never ha (neverReturns_of_not_returns he h)]

/-! ## The commands one by one (R117 to R126) -/

/-- `s8` is the signed reading of a byte (R57). -/
theorem s8_eq_toInt (b : Byte) : s8 b = b.toInt := by
  rw [BitVec.toInt_eq_toNat_cond, s8]
  have h : b.toNat < 128 ↔ 2 * b.toNat < 2 ^ 8 := by omega
  simp only [h]
  rfl

theorem exec_motorSetSpeed_two (l r : Byte) (s : State) :
    exec (.motorSetSpeed [l, r]) s = .next (dispatch [.call (.setMotorSpeed l.toInt r.toInt), .send .ack] s) := by
  rw [← s8_eq_toInt, ← s8_eq_toInt]
  rfl

/-- Settles O52: both commands dispatch their handler's call and an ACK. -/
theorem stopCommandsCallThenAck : Obligations.StopCommandsCallThenAck := by
  rintro s p h i (⟨rfl, rfl⟩ | ⟨rfl, rfl⟩) ha he
  · exact congrArg Host.Outcome.next (dispatch_call_ack ha nofun he)
  · exact congrArg Host.Outcome.next (dispatch_call_ack ha nofun he)

/-- Settles O53: two bytes are dispatched as a call and an ACK, any other length as a NACK. -/
theorem setSpeedNeedsTwoSignedBytes : Obligations.SetSpeedNeedsTwoSignedBytes := by
  intro s l r p ha
  refine ⟨fun he => ?_, fun hp => ?_⟩
  · rw [exec_motorSetSpeed_two, dispatch_call_ack ha (h := .setMotorSpeed _ _) nofun he]
  · rw [exec_motorSetSpeed_of_ne hp, dispatch_nackActions_of_atomic ha]

/-- Settles O54: one byte is dispatched as a call and an ACK, any other length as a NACK. -/
theorem singleStateCommandsNeedOneByte : Obligations.SingleStateCommandsNeedOneByte := by
  intro s v p ha
  refine ⟨fun he => ⟨?_, ?_⟩, fun hp => ⟨?_, ?_⟩⟩
  · exact congrArg Host.Outcome.next (dispatch_call_ack ha nofun he)
  · exact congrArg Host.Outcome.next (dispatch_call_ack ha nofun he)
  · rw [exec_ledControl_of_ne hp, dispatch_nackActions_of_atomic ha]
  · rw [exec_buzzerControl_of_ne hp, dispatch_nackActions_of_atomic ha]

/-- Settles O55: the three queries dispatch their handler's call and nothing else. -/
theorem queriesOnlyCallTheirHandler : Obligations.QueriesOnlyCallTheirHandler := by
  rintro s p h i (⟨rfl, rfl⟩ | ⟨rfl, rfl⟩ | ⟨rfl, rfl⟩) ha he
  · exact congrArg Host.Outcome.next (dispatch_call ha nofun he)
  · exact congrArg Host.Outcome.next (dispatch_call ha nofun he)
  · exact congrArg Host.Outcome.next (dispatch_call ha nofun he)

/-- Settles O57: after the ACK and the wait comes the handler that never returns. -/
theorem resetCommandAcksThenNeverReturns : Obligations.ResetCommandAcksThenNeverReturns := by
  intro s p ha
  have hreset : neverReturns .reset (nextRun s) = true := rfl
  have hrun : dispatch resetCommandActions s =
      neverDone ((((s.emit ackObs).emit [.wait .flush]).withHandlers s.handlers.tail).emit
        (callObs s.params .reset (nextRun s))) := by
    rw [dispatch_of_atomic ha, resetCommandActions, runActions_ack ha, runActions_wait]
    exact runActions_call_of_never (s := (s.emit ackObs).emit [.wait .flush]) ha hreset []
  have hseen : (((s.emit ackObs).emit [.wait .flush]).withHandlers s.handlers.tail).emit
      (callObs s.params .reset (nextRun s)) =
      (s.withHandlers s.handlers.tail).emit (ackObs ++ .wait .flush :: callObs s.params .reset (nextRun s)) := by
    simp [State.emit, State.withHandlers]
  rw [← hseen, ← hrun]
  rfl

/-- Settles O59: each of the eight commands begins its dispatch with its handler's call. -/
theorem handlerThatNeverReturnsHangsDispatch : Obligations.HandlerThatNeverReturnsHangsDispatch := by
  rintro s l r v p h i hi ha he
  have hnever (as : List Action) :=
    congrArg (Host.Outcome.next (φ := Fault) (ρ := Refusal)) (dispatch_call_of_not_returns ha h he as)
  obtain ⟨rfl, rfl⟩ | ⟨rfl, rfl⟩ | ⟨rfl, rfl⟩ | ⟨rfl, rfl⟩ | ⟨rfl, rfl⟩ | ⟨rfl, rfl⟩ | ⟨rfl, rfl⟩ | ⟨rfl, rfl⟩ := hi
  · exact hnever [.send .ack]
  · exact hnever [.send .ack]
  · exact hnever []
  · exact hnever []
  · exact hnever []
  · exact (exec_motorSetSpeed_two l r s).trans (hnever [.send .ack])
  · exact hnever [.send .ack]
  · exact hnever [.send .ack]

/-! ## All sensors (R122) -/

theorem queryHandler_ne_reset (q : Query) : queryHandler q ≠ .reset := by
  cases q <;> nofun

theorem allSensorsActions_cons {qs : List Query} (h : qs ≠ []) (q : Query) :
    allSensorsActions (q :: qs) = .call (queryHandler q) :: .wait .settleGap :: allSensorsActions qs := by
  cases qs with
  | nil => contradiction
  | cons q' qs => rfl

theorem allSensorsObs_cons {qs : List Query} (h : qs ≠ []) (q : Query) (s : State) :
    allSensorsObs s.params (q :: qs) s.handlers =
      callObs s.params (queryHandler q) (nextRun s) ++
        .wait .settleGap :: allSensorsObs s.params qs s.handlers.tail := by
  cases qs with
  | nil => contradiction
  | cons q' qs => rfl

/-- Beyond the list a handler returns. -/
theorem nextRun_returns {s : State} {n : Nat} (h : ∀ e ∈ s.handlers.take (n + 1), e.returns = true) :
    (nextRun s).returns = true := by
  unfold nextRun
  cases hs : s.handlers with
  | nil => rfl
  | cons e es => exact h e (by simp [hs])

/-- The state after a handler of the sequence that is not the last, with the gap. -/
def afterQuery (q : Query) (s : State) : State :=
  ((s.withHandlers s.handlers.tail).emit (callObs s.params (queryHandler q) (nextRun s))).emit [.wait .settleGap]

/-- A handler of the sequence that returns and is not the last. -/
theorem runActions_allSensors_cons {s : State} (ha : atomic s = true) {qs : List Query} (hqs : qs ≠ []) (q : Query)
    (he : (nextRun s).returns = true) :
    runActions (allSensorsActions (q :: qs)) s = runActions (allSensorsActions qs) (afterQuery q s) := by
  rw [allSensorsActions_cons hqs,
    runActions_call_of_returns ha (neverReturns_of_returns (queryHandler_ne_reset q) he), runActions_wait]
  rfl

/-- What is seen after a handler of the sequence and what is seen of it are what is seen of both. -/
theorem afterQuery_emit {s : State} {qs : List Query} (hqs : qs ≠ []) (q : Query) (l : List HandlerRun) :
    ((afterQuery q s).withHandlers l).emit (allSensorsObs s.params qs s.handlers.tail) =
      (s.withHandlers l).emit (allSensorsObs s.params (q :: qs) s.handlers) := by
  rw [allSensorsObs_cons hqs]
  simp [afterQuery, State.emit, State.withHandlers]

theorem mem_take_succ_of_mem_take_tail {l : List HandlerRun} {n : Nat} {e : HandlerRun} (h : e ∈ l.tail.take n) :
    e ∈ l.take (n + 1) := by
  cases l with
  | nil => simp at h
  | cons e' l => exact List.mem_cons_of_mem _ h

theorem runActions_allSensors_of_returns {s : State} (ha : atomic s = true) {qs : List Query}
    (hret : ∀ e ∈ s.handlers.take qs.length, e.returns = true) :
    runActions (allSensorsActions qs) s =
      (s.withHandlers (s.handlers.drop qs.length)).emit (allSensorsObs s.params qs s.handlers) := by
  induction qs generalizing s with
  | nil => exact (State.emit_nil s).symm
  | cons q qs ih =>
    have he : (nextRun s).returns = true := nextRun_returns hret
    by_cases hqs : qs = []
    · subst hqs
      exact (runActions_call_of_returns ha (neverReturns_of_returns (queryHandler_ne_reset q) he) []).trans
        (by rw [← List.drop_one]; rfl)
    · have htail : ∀ e ∈ (afterQuery q s).handlers.take qs.length, e.returns = true := fun e hmem =>
        hret e (mem_take_succ_of_mem_take_tail hmem)
      rw [runActions_allSensors_cons ha hqs q he, ih (s := afterQuery q s) ha htail, List.length_cons, ← List.drop_tail]
      exact afterQuery_emit hqs q _

theorem runActions_allSensors_of_never {s : State} (ha : atomic s = true) {qs : List Query}
    {pre post : List HandlerRun} {e : HandlerRun} (hs : s.handlers = pre ++ e :: post)
    (hpre : ∀ e' ∈ pre, e'.returns = true) (he : e.returns = false) (hlt : pre.length < qs.length) :
    runActions (allSensorsActions qs) s = neverDone ((s.withHandlers post).emit
      (allSensorsObs s.params (qs.take (pre.length + 1)) s.handlers)) := by
  induction pre generalizing s qs with
  | nil =>
    obtain ⟨q, qs, rfl⟩ := List.exists_cons_of_ne_nil (List.ne_nil_of_length_pos hlt)
    have hnext : nextRun s = e := by simp [nextRun, hs]
    have htail : s.handlers.tail = post := by rw [hs]; rfl
    have hnever := neverReturns_of_not_returns (hnext ▸ he) (queryHandler q)
    obtain ⟨as, hactions⟩ : ∃ as, allSensorsActions (q :: qs) = .call (queryHandler q) :: as := by
      cases qs <;> exact ⟨_, rfl⟩
    rw [hactions, runActions_call_of_never ha hnever, htail]
    rfl
  | cons e' pre ih =>
    rw [List.length_cons] at hlt
    obtain ⟨q, qs, rfl⟩ := List.exists_cons_of_ne_nil (List.ne_nil_of_length_pos (Nat.zero_lt_of_lt hlt))
    have hlt : pre.length < qs.length := Nat.lt_of_succ_lt_succ hlt
    have hqs : qs ≠ [] := List.ne_nil_of_length_pos (Nat.zero_lt_of_lt hlt)
    have htake : qs.take (pre.length + 1) ≠ [] := by simp [hqs]
    have hret : (nextRun s).returns = true := by simpa [nextRun, hs] using hpre e' (List.mem_cons_self ..)
    have htail : (afterQuery q s).handlers = pre ++ e :: post := congrArg List.tail hs
    rw [runActions_allSensors_cons ha hqs q hret,
      ih (s := afterQuery q s) ha htail (fun e₁ h₁ => hpre e₁ (List.mem_cons_of_mem _ h₁)) hlt, List.length_cons,
      List.take_succ_cons]
    exact congrArg neverDone (afterQuery_emit htake q post)

/-- Settles O56: both clauses by induction on what is still to be called. -/
theorem allSensorsCallsInSequence : Obligations.AllSensorsCallsInSequence := by
  intro s p pre post e ha
  have hexec : exec (.allSensorsReq p) s = .next (runActions (allSensorsActions s.params.allSensors) s) :=
    congrArg Host.Outcome.next (dispatch_of_atomic ha _)
  rw [hexec]
  exact ⟨fun hret => congrArg Host.Outcome.next (runActions_allSensors_of_returns ha hret),
    fun hs hpre he hlt => congrArg Host.Outcome.next (runActions_allSensors_of_never ha hs hpre he hlt)⟩

/-! ## Where a dispatch is not one step (R24, R38) -/

theorem dispatch_eq_leaves {s : State} (ha : atomic s = false) (as : List Action) : dispatch as s = leaves s as :=
  dispatch_of_not_atomic ha as

/-- The actions of the all-sensors command are its calls with the gap between them. -/
theorem allSensorsActions_eq_intersperse (qs : List Query) :
    allSensorsActions qs = (qs.map fun q => Action.call (queryHandler q)).intersperse (.wait .settleGap) := by
  induction qs with
  | nil => rfl
  | cons q qs ih =>
    by_cases hqs : qs = []
    · subst hqs
      rfl
    · obtain ⟨q', qs', rfl⟩ := List.exists_cons_of_ne_nil hqs
      rw [allSensorsActions_cons hqs, ih]
      rfl

/-- Settles O60: the frame is held, and each dispatch is left as its actions. -/
theorem dispatchWaitsAtPortLevel : Obligations.DispatchWaitsAtPortLevel := by
  rintro s c l r v p f u ha rfl rfl
  have hleaves (as : List Action) := congrArg (Host.Outcome.next (φ := Fault) (ρ := Refusal)) (dispatch_eq_leaves ha as)
  have hreceived : atomic (s.withRx (rxOnCsum s.rx v)) = false := ha
  refine ⟨congrArg Host.Outcome.next (deliver_of_not_atomic hreceived _),
    congrArg Host.Outcome.next (dispatch_eq_leaves hreceived _),
    (exec_motorSetSpeed_two l r s).trans (hleaves _), hleaves _, hleaves _, hleaves _, hleaves _, hleaves _, ?_,
    hleaves _, hleaves _, hleaves _, hleaves _, fun hp => (exec_motorSetSpeed_of_ne hp s).trans (hleaves _),
    fun hp => ⟨(exec_ledControl_of_ne hp s).trans (hleaves _), (exec_buzzerControl_of_ne hp s).trans (hleaves _)⟩⟩
  rw [← allSensorsActions_eq_intersperse]
  exact hleaves _

end Sys2Proof.Proofs
end
